-- ==== Sys2Proof/Word.lean ====
section
/-! DEFINITION. The word types of SMECSTIM-BLK (spec/00_scope.md R9, R10): every value is unsigned, bit 0 the
least significant. Registers whose width the spec leaves to a parameter (CMP_W, DEB_W, VSS_W) are naturals. -/

namespace Sys2Proof

/-- An event word, one per event of a trace (R65, R66). -/
abbrev EventWord := BitVec 16

/-- A rotation table entry word (R65, R69). -/
abbrev EntryWord := BitVec 18

/-- A converted sample or a duty, SAMPLE_W = 8 bits (R6). -/
abbrev Sample := BitVec 8

/-- A channel number, ADC_IDX or ADC_MUX (R30, R31, R71). -/
abbrev ChanNo := BitVec 2

/-- POS_IDX, the least width holding ROT_LEN - 1 = 19 (R22). -/
abbrev PosNo := BitVec 5

/-- The two positions of the calibration selector (R72). -/
inductive CalSel where
  /-- CAL_SEL = 0, the low-pressure-range position. -/
  | low
  /-- CAL_SEL = 1, the other position. -/
  | high
deriving DecidableEq, Repr

end Sys2Proof
end

