-- ==== Sys2Proof/Config.lean ====
section
/-! DEFINITION. The parameters of SMECSTIM-BLK (spec/00_scope.md R6, R7). A value the source states is a constant
here. A value the spec leaves OPEN is a field of Config, which State carries and no event changes, so a statement about
every state holds for every value of every OPEN parameter. -/

namespace Sys2Proof

/-- ROT_LEN, the entries of the rotation table (R6). -/
def rotLen : Nat := 20

/-- NCHAN, the analog channels (R6). -/
def nChan : Nat := 4

/-- PWM_W, the width of the PWM counter (R7, R36). -/
def pwmW : Nat := 8

/-- The OPEN parameters of R7, under the spec's names. `adcResInit` alone is the model's own (DESIGN CHOICE, log 3):
R33 leaves ADC_RES after RESET at any 8-bit value. -/
structure Config where
  /-- ROT_TABLE, the entry words of the rotation table (R51, R69). -/
  rotTable : List EntryWord
  /-- BASE_MIN, added to the RPM sample before scaling (R87). -/
  baseMin : Nat
  /-- CMP_W, the width of ROT_CMP and ROT_CNT. -/
  cmpW : Nat
  /-- TPS_MIN, the lower clamp bound (R91). -/
  tpsMin : Sample
  /-- TPS_MAX, the upper clamp bound (R91). -/
  tpsMax : Sample
  /-- BARO_DUTY_LO (R37). -/
  baroDutyLo : Sample
  /-- BARO_DUTY_HI (R37). -/
  baroDutyHi : Sample
  /-- DEB_WINDOW, the reload of the debounce counter (R104). -/
  debWindow : Nat
  /-- DEB_W, the width of DEB. -/
  debW : Nat
  /-- VSS_BASE, the base reload of the speed divider (R94). -/
  vssBase : Nat
  /-- VSS_W, the width of VSS_DIV. -/
  vssW : Nat
  /-- CMP_INIT, ROT_CMP after reset (R27). -/
  cmpInit : Nat
  /-- VSS_DIV_INIT, VSS_DIV after reset (R40). -/
  vssDivInit : Nat
  /-- ADC_INIT[0..3], the channel file after reset (R28). -/
  adcInit : Vector Sample 4
  /-- HEP_A_INIT (R26). -/
  hepAInit : Bool
  /-- HEP_B_INIT (R26). -/
  hepBInit : Bool
  /-- VSS_PIN_INIT (R41). -/
  vssPinInit : Bool
  /-- BARO_FLAG_INIT (R25). -/
  baroFlagInit : Bool
  /-- DUTY_INIT_MAP (R34, R35). -/
  dutyInitMap : Sample
  /-- DUTY_INIT_TPS (R34, R35). -/
  dutyInitTps : Sample
  /-- ADC_RES after RESET, any value (R33). DESIGN CHOICE, log 3: unsafe only for a claim that fixes it. -/
  adcResInit : Sample
deriving DecidableEq, Repr

/-- FREE VALUE (DESIGN CHOICE, log 11, safe): what (VSS_DIV, VSS_PIN) become when FIRE_REF finds VSS_DIV = 0, by the
pin and the VSS sample. R94 says "div >= 1" and gives no value at 0; R43 says no run reaches it. -/
opaque Config.vssNextAtZero : Bool → Sample → Nat × Bool

/-- Entries 0 to 9 of TC1's table (spec/95_test_vectors.md section 2). -/
def Config.tc1TableLow : List EntryWord :=
  [0x10001#18, 0x20002#18, 0x10003#18, 0x20004#18, 0x10005#18,
   0x20006#18, 0x10007#18, 0x20008#18, 0x10009#18, 0x2000A#18]

/-- Entries 10 to 19 of TC1's table. -/
def Config.tc1TableHigh : List EntryWord :=
  [0x1000B#18, 0x2000C#18, 0x1000D#18, 0x2000E#18, 0x1000F#18,
   0x20010#18, 0x10011#18, 0x20012#18, 0x10013#18, 0x20014#18]

/-- TC1, the spec's test configuration (spec/95_test_vectors.md section 2). The source gives no values, so that
State.reset uses these is a DESIGN CHOICE (log 2, unsafe for a claim about State.reset alone). -/
def Config.tc1 : Config where
  rotTable := Config.tc1TableLow ++ Config.tc1TableHigh
  baseMin := 1
  cmpW := 16
  tpsMin := 20
  tpsMax := 230
  baroDutyLo := 100
  baroDutyHi := 200
  debWindow := 3
  debW := 16
  vssBase := 4
  vssW := 16
  cmpInit := 10
  vssDivInit := 4
  adcInit := #v[0, 0, 0, 0]
  hepAInit := false
  hepBInit := false
  vssPinInit := false
  baroFlagInit := false
  dutyInitMap := 0
  dutyInitTps := 0
  adcResInit := 0

end Sys2Proof
end

