-- ==== Sys2Proof/Syntax.lean ====
section
/-! DEFINITION. The events of SMECSTIM-BLK, its instruction set (spec/30_encoding.md R67), one constructor per row of
spec/opcode_table.json. -/

namespace Sys2Proof

/-- An event. The first six are the environment's, the last five the block's dispatches (R67). -/
inductive Instr where
  /-- RESET cal (R136): power-on reset with the calibration selector's position. -/
  | reset (cal : CalSel)
  /-- ROT_TICK (R109): one tick of the rotation timer's clock. -/
  | rotTick
  /-- PWM_TICK (R111): one tick of the PWM timer's clock. -/
  | pwmTick
  /-- ADC_DONE v (R97): the converter reports a completed conversion. -/
  | adcDone (v : Sample)
  /-- RUN_EDGE (R103): an edge on the run/stop input. -/
  | runEdge
  /-- BARO_EDGE (R105): an edge on the baro-mode input. -/
  | baroEdge
  /-- FIRE_PSM (R85): run the Position State Machine. -/
  | firePsm
  /-- FIRE_REF (R90): run the Cycle Refresh Handler. -/
  | fireRef
  /-- FIRE_ADC (R98): run the Analog Sampler. -/
  | fireAdc
  /-- FIRE_RUN (R104): run the Debounced Toggle Handler. -/
  | fireRun
  /-- FIRE_BARO (R106): run the Mode Toggle Handler. -/
  | fireBaro
deriving DecidableEq, Repr

end Sys2Proof
end

