-- ==== Sys2Proof/Decode.lean ====
section
/-! DEFINITION. The decoder and encoder of the event word (spec/30_encoding.md R66 to R68, R73, R74) and the fields
of the rotation table's entry word (R69). -/

namespace Sys2Proof

/-- Why an event word spells no event (R73, R74). -/
inductive DecodeRefusal where
  /-- The code is 0x6, 0x7, 0xD, 0xE or 0xF (R73). -/
  | reservedCode
  /-- A bit that R68 or R74 requires to be 0 is not (R74). -/
  | reservedBits
deriving DecidableEq, Repr

/-- The `code` field, bits [15:12] (R66). -/
def evCode (w : EventWord) : BitVec 4 := w.extractLsb' 12 4

/-- The `rsv` field, bits [11:8] (R66). -/
def evRsv (w : EventWord) : BitVec 4 := w.extractLsb' 8 4

/-- The `opnd` field, bits [7:0] (R66). -/
def evOpnd (w : EventWord) : BitVec 8 := w.extractLsb' 0 8

/-- `E.delta = E[15:0]` (R69). -/
def entryDelta (e : EntryWord) : Nat := (e.extractLsb' 0 16).toNat

/-- `E.mask = E[17:16]` (R69). -/
def entryMask (e : EntryWord) : BitVec 2 := e.extractLsb' 16 2

/-- CAL_SEL of RESET's operand bit 0 (R68, R72). -/
def calOfBit (b : Bool) : CalSel := if b then .high else .low

/-- An event whose operand must be 0 (R68, R74). -/
def decodePlain (w : EventWord) (i : Instr) : Except DecodeRefusal Instr :=
  if evRsv w = 0 ∧ evOpnd w = 0 then .ok i else .error .reservedBits

/-- RESET: opnd[0] is CAL_SEL, opnd[7:1] must be 0 (R68). -/
def decodeReset (w : EventWord) : Except DecodeRefusal Instr :=
  if evRsv w = 0 ∧ (evOpnd w).extractLsb' 1 7 = 0 then .ok (.reset (calOfBit (w.getLsbD 0)))
  else .error .reservedBits

/-- ADC_DONE: the operand is the result, every value legal (R68). -/
def decodeAdcDone (w : EventWord) : Except DecodeRefusal Instr :=
  if evRsv w = 0 then .ok (.adcDone (evOpnd w)) else .error .reservedBits

/-- The event a word spells, or why it spells none (R67, R73, R74). Total on all 65536 words. -/
def decode (w : EventWord) : Except DecodeRefusal Instr :=
  match evCode w with
  | 0x0#4 => decodeReset w
  | 0x1#4 => decodePlain w .rotTick
  | 0x2#4 => decodePlain w .pwmTick
  | 0x3#4 => decodeAdcDone w
  | 0x4#4 => decodePlain w .runEdge
  | 0x5#4 => decodePlain w .baroEdge
  | 0x8#4 => decodePlain w .firePsm
  | 0x9#4 => decodePlain w .fireRef
  | 0xA#4 => decodePlain w .fireAdc
  | 0xB#4 => decodePlain w .fireRun
  | 0xC#4 => decodePlain w .fireBaro
  | _ => .error .reservedCode

/-- The code of an event (R67). -/
def codeOf : Instr → BitVec 4
  | .reset _ => 0x0
  | .rotTick => 0x1
  | .pwmTick => 0x2
  | .adcDone _ => 0x3
  | .runEdge => 0x4
  | .baroEdge => 0x5
  | .firePsm => 0x8
  | .fireRef => 0x9
  | .fireAdc => 0xA
  | .fireRun => 0xB
  | .fireBaro => 0xC

/-- The operand of an event (R68). -/
def operandOf : Instr → BitVec 8
  | .reset .low => 0
  | .reset .high => 1
  | .adcDone v => v
  | .rotTick | .pwmTick | .runEdge | .baroEdge => 0
  | .firePsm | .fireRef | .fireAdc | .fireRun | .fireBaro => 0

/-- The event word {code, 0, opnd} (R66, R76). -/
def encode (i : Instr) : EventWord := codeOf i ++ 0#4 ++ operandOf i

/-- The decoder on the opcode table's numbering of bits: the one 16-bit word is bits 15..0, whatever bits above
`nbits` the table left out are 0, and a number of more than 16 bits is no event word (R65). -/
def decodeTableWord (nbits w : Nat) : Option Instr :=
  if w % 2 ^ nbits < 2 ^ 16 then (decode (BitVec.ofNat 16 (w % 2 ^ nbits))).toOption else none

end Sys2Proof
end

