-- ==== Sys2Proof/WellFormed.lean ====
section
/-! DEFINITION. The named checks a configuration must pass (spec/00_scope.md R8). Every term of Instr is well formed:
its operands are a CalSel and an 8-bit sample, all of whose values are legal (spec/30_encoding.md R68). -/

namespace Sys2Proof

/-- The checks of R8, under their names there and in their order there. -/
inductive ConfigCheck where
  /-- cfg_table_len: ROT_TABLE has exactly ROT_LEN entries. -/
  | tableLen
  /-- cfg_mask_onehot: every mask is 0b01 or 0b10 (R70). -/
  | maskOnehot
  /-- cfg_delta_nonzero: every delta is at least 1, and BASE_MIN >= 1. -/
  | deltaNonzero
  /-- cfg_cmp_fits: no product written to ROT_CMP is truncated, and 1 <= CMP_INIT. -/
  | cmpFits
  /-- cfg_tps_order: TPS_MIN <= TPS_MAX. -/
  | tpsOrder
  /-- cfg_deb: 1 <= DEB_WINDOW <= 2^DEB_W - 1. -/
  | deb
  /-- cfg_vss: 1 <= VSS_BASE, VSS_BASE + 255 <= 2^VSS_W - 1, 1 <= VSS_DIV_INIT. -/
  | vss
  /-- cfg_widths: every parameter fits its stated width. -/
  | widths
deriving DecidableEq, Repr

/-- The checks in R8's order. -/
def ConfigCheck.all : List ConfigCheck :=
  [.tableLen, .maskOnehot, .deltaNonzero, .cmpFits, .tpsOrder, .deb, .vss, .widths]

/-- The largest delta of the table, 0 for an empty one. -/
def Config.maxDelta (c : Config) : Nat := (c.rotTable.map entryDelta).foldl max 0

/-- Whether a configuration passes one check of R8. The 8-bit parameters fit by their type. -/
def Config.passes (c : Config) : ConfigCheck → Bool
  | .tableLen => c.rotTable.length == rotLen
  | .maskOnehot => c.rotTable.all fun e => entryMask e == 0b01#2 || entryMask e == 0b10#2
  | .deltaNonzero => (c.rotTable.all fun e => decide (1 ≤ entryDelta e)) && decide (1 ≤ c.baseMin)
  | .cmpFits => decide ((c.baseMin + 255) * c.maxDelta ≤ 2 ^ c.cmpW - 1) && decide (1 ≤ c.cmpInit)
  | .tpsOrder => decide (c.tpsMin ≤ c.tpsMax)
  | .deb => decide (1 ≤ c.debWindow) && decide (c.debWindow ≤ 2 ^ c.debW - 1)
  | .vss => decide (1 ≤ c.vssBase) && decide (c.vssBase + 255 ≤ 2 ^ c.vssW - 1) && decide (1 ≤ c.vssDivInit)
  | .widths => decide (c.cmpInit < 2 ^ c.cmpW) && decide (c.vssDivInit < 2 ^ c.vssW)

/-- The first check of R8 that a configuration fails, if any. -/
def Config.failedCheck (c : Config) : Option ConfigCheck :=
  ConfigCheck.all.find? fun k => !c.passes k

end Sys2Proof
end

