-- ==== Sys2Proof/Machine/State.lean ====
section
/-! DEFINITION. The state of SMECSTIM-BLK (spec/10_state.md R22, every element), the reasons a step can stop, and the
state right after reset (spec/70_reset_and_hazards.md R137). -/

namespace Sys2Proof.Machine

/-- The fault reasons of R123. There are no others. -/
inductive FaultReason where
  /-- DEADLINE_MISS_PSM: ROT_TICK, a compare match while PEND_PSM = 1 (R109). -/
  | deadlineMissPsm
  /-- DEADLINE_MISS_REF: PWM_TICK, an overflow while PEND_REF = 1 (R111). -/
  | deadlineMissRef
  /-- DEADLINE_MISS_BARO: BARO_EDGE, an edge while PEND_BARO = 1 (R105). -/
  | deadlineMissBaro
deriving DecidableEq, Repr

/-- The state record of R22, with three fields of the model's own: `cfg` (the spec's `cfg` argument of R12), `trace`
(the event words still to come) and `booted` (whether this trace's RESET has happened). DESIGN CHOICE, log 1, safe. -/
structure State where
  /-- The configuration (R6, R7), which no event changes. Model's own field. -/
  cfg : Config
  /-- The event words still to be taken, next first (R5, R127). Model's own field. -/
  trace : List EventWord
  /-- Whether the RESET event of this trace has happened (R136, R122). Model's own field. -/
  booted : Bool
  /-- POS_IDX (R23). -/
  posIdx : PosNo
  /-- RUN, the rotation-clock enable (R24). -/
  run : Bool
  /-- BARO_FLAG, the MAP source select (R25). -/
  baroFlag : Bool
  /-- HEP_A, the level of the first HEP pin (R26). -/
  hepA : Bool
  /-- HEP_B, the level of the second HEP pin (R26). -/
  hepB : Bool
  /-- ROT_CMP, CMP_W bits (R27). -/
  rotCmp : Nat
  /-- CH[0..3], the channel file (R28). -/
  ch : Vector Sample 4
  /-- ROT_CNT, CMP_W bits (R29). -/
  rotCnt : Nat
  /-- ADC_IDX (R30). -/
  adcIdx : ChanNo
  /-- ADC_MUX (R31). -/
  adcMux : ChanNo
  /-- ADC_BUSY (R32). -/
  adcBusy : Bool
  /-- ADC_RES (R33). -/
  adcRes : Sample
  /-- DUTY_BUF_MAP (R34). -/
  dutyBufMap : Sample
  /-- DUTY_BUF_TPS (R34). -/
  dutyBufTps : Sample
  /-- DUTY_ACT_MAP (R35). -/
  dutyActMap : Sample
  /-- DUTY_ACT_TPS (R35). -/
  dutyActTps : Sample
  /-- PWM_CNT, PWM_W = 8 bits (R36). -/
  pwmCnt : BitVec 8
  /-- BARO_DUTY, latched at reset (R37). -/
  baroDuty : Sample
  /-- PEND_PSM (R38). -/
  pendPsm : Bool
  /-- PEND_REF (R38). -/
  pendRef : Bool
  /-- PEND_ADC (R38). -/
  pendAdc : Bool
  /-- PEND_RUN (R38). -/
  pendRun : Bool
  /-- PEND_BARO (R38). -/
  pendBaro : Bool
  /-- DEB, DEB_W bits (R39). -/
  deb : Nat
  /-- VSS_DIV, VSS_W bits (R40). -/
  vssDiv : Nat
  /-- VSS_PIN (R41). -/
  vssPin : Bool
  /-- FAULT (R42). -/
  fault : Option FaultReason
deriving DecidableEq, Repr

/-- A fault outcome, the spec's `Fault(s', reason)` of R12. -/
inductive Fault where
  /-- `raise Fault(reason)` (R121): raised by ROT_TICK, PWM_TICK and BARO_EDGE on a missed deadline (R123). `after` is
  the fault state: the raising event's writes before the raise, and FAULT = reason. Safe: the model stops where the
  chip goes on with glitched output. -/
  | raised (reason : FaultReason) (after : State)
deriving DecidableEq, Repr

/-- A refusal, the spec's `Refused(reason)` of R12 and R122: the event word is rejected and no state changes. -/
inductive Refusal where
  /-- An instruction without a meaning yet; no arm of this model answers it. Safe. -/
  | notModelled (mnemonic : String)
  /-- ReservedCode: the step, on a word whose code is reserved (R73). Safe. -/
  | reservedCode
  /-- ReservedBits: the step, on a word with a forbidden non-zero bit (R74). Safe. -/
  | reservedBits
  /-- NoReset: every event but RESET, before the trace's RESET (R122, R136). Safe. -/
  | noReset
  /-- ResetNotFirst: RESET, after the trace's RESET (R122, R136). Safe. -/
  | resetNotFirst
  /-- NotEnabled: every event but RESET, when its "Enabled when" fails (R122). Safe. -/
  | notEnabled
  /-- BadIndex: FIRE_PSM, on a table index outside the table, which no run forms (R51). Safe. -/
  | badIndex
  /-- The step, on a configuration that fails this check, before any event (R8, R122). Safe. -/
  | badConfig (check : ConfigCheck)
deriving DecidableEq, Repr

/-- The machine right after reset: S0 of spec/95_test_vectors.md section 2, the state after RESET LOW (R137) under TC1,
with no event waiting. The OPEN values are TC1's and ADC_RES is 0: DESIGN CHOICE, log 2 and log 3, unsafe for a claim
about this one state; no statement of the model but a sanity one rests on it. -/
def State.reset : State where
  cfg := Config.tc1
  trace := []
  booted := true
  posIdx := 0
  run := false
  baroFlag := false
  hepA := false
  hepB := false
  rotCmp := 10
  ch := #v[0, 0, 0, 0]
  rotCnt := 0
  adcIdx := 0
  adcMux := 0
  adcBusy := true
  adcRes := 0
  dutyBufMap := 0
  dutyBufTps := 0
  dutyActMap := 0
  dutyActTps := 0
  pwmCnt := 0
  baroDuty := 100
  pendPsm := false
  pendRef := false
  pendAdc := false
  pendRun := false
  pendBaro := false
  deb := 0
  vssDiv := 4
  vssPin := false
  fault := none

end Sys2Proof.Machine
end

