-- ==== Sys2Proof/Machine/Ops.lean ====
section
/-! DEFINITION. The named operations every meaning is written with: the two stores (spec/20_memory.md R51, R53), the
pending bits (spec/10_state.md R38), raising a fault (spec/60_exceptions.md R121), and the entry to an event with its
enabling condition and refusals (R122, R127 to R129). -/

namespace Sys2Proof.Machine

/-- The three outcomes of one event (R12). -/
abbrev Result := Host.Outcome State Fault Refusal

/-- The five event sources (R125), one per handler operation. -/
inductive Source where
  /-- Rotation timer compare match, served by FIRE_PSM. -/
  | psm
  /-- PWM timer overflow, served by FIRE_REF. -/
  | ref
  /-- Conversion complete, served by FIRE_ADC. -/
  | adc
  /-- Run/stop input edge, served by FIRE_RUN. -/
  | run
  /-- Baro-mode input edge, served by FIRE_BARO. -/
  | baro
deriving DecidableEq, Repr

/-- The dispatch event of a source (R125). -/
def Source.fire : Source → Instr
  | .psm => .firePsm
  | .ref => .fireRef
  | .adc => .fireAdc
  | .run => .fireRun
  | .baro => .fireBaro

/-- The pending bit of a source (R38). -/
def State.pending (s : State) : Source → Bool
  | .psm => s.pendPsm
  | .ref => s.pendRef
  | .adc => s.pendAdc
  | .run => s.pendRun
  | .baro => s.pendBaro

/-- Write the pending bit of a source (R38). -/
def State.setPending (s : State) (src : Source) (b : Bool) : State :=
  match src with
  | .psm => { s with pendPsm := b }
  | .ref => { s with pendRef := b }
  | .adc => { s with pendAdc := b }
  | .run => { s with pendRun := b }
  | .baro => { s with pendBaro := b }

/-- `MemRead(i, 1)`: the entry word at index i of the rotation table, none outside it (R51). -/
def State.memRead (s : State) (i : PosNo) : Option EntryWord := s.cfg.rotTable[i.toNat]?

/-- `CH[k]` (R53). -/
def State.chRead (s : State) (k : ChanNo) : Sample := s.ch.get ⟨k.toNat, k.isLt⟩

/-- `CH[k] <- v` (R53). -/
def State.chWrite (s : State) (k : ChanNo) (v : Sample) : State := { s with ch := s.ch.set k.toNat v k.isLt }

/-- `raise Fault(reason)`: FAULT <- reason, and the event ends with the writes made so far (R121). -/
def raise (reason : FaultReason) (s : State) : Result := .fault (.raised reason { s with fault := some reason })

/-- An event other than RESET: refused NoReset before RESET (R136), refused NotEnabled in the fault state (R121) or
where its own condition fails (R122, in that order), else its operation. -/
def whenEnabled (enabled : State → Bool) (operation : State → Result) (s : State) : Result :=
  if s.booted = false then .refused .noReset
  else if s.fault = none ∧ enabled s = true then operation s
  else .refused .notEnabled

/-- Which pending source the priority rule lets be dispatched (R127, R128). -/
def mayDispatch (src : Source) (s : State) : Bool := s.pending src && (src == .psm || !s.pendPsm)

/-- A dispatch: enabled by its pending bit and the priority rule (R127, R128); the entry to the operation clears the
pending bit and saves nothing (R129). -/
def dispatch (src : Source) (operation : State → Result) (s : State) : Result :=
  whenEnabled (mayDispatch src) (fun s => operation (s.setPending src false)) s

/-- A source's event under a deadline: a second one while the first is pending is a missed deadline (R123, R124). -/
def raiseSource (src : Source) (miss : FaultReason) (s : State) : Result :=
  if s.pending src then raise miss s else .next (s.setPending src true)

/-- The configuration is checked before any event (R8, R122). -/
def configRefusal (s : State) : Option Refusal := s.cfg.failedCheck.map .badConfig

/-- Why the decoder refuses a word, as a refusal of the step (R122). -/
def refusalOf : DecodeRefusal → Refusal
  | .reservedCode => .reservedCode
  | .reservedBits => .reservedBits

/-- Take the next event word off the trace (R59). -/
def State.popEvent (s : State) : State := { s with trace := s.trace.tail }

/-- No event word left: the block is idle and its state stays (R75, R134). DESIGN CHOICE, log 7, safe. -/
def idle (s : State) : Result := .next s

/-- Place an event word as the next event of the trace. RESET runs only as the first event of a trace (R136), so
placing a RESET word starts a new trace. DESIGN CHOICE, log 10. -/
def State.placeEvent (s : State) (w : EventWord) : State :=
  match decode w with
  | .ok (.reset _) => { s with trace := w :: s.trace, booted := false }
  | _ => { s with trace := w :: s.trace }

end Sys2Proof.Machine
end

