-- ==== Sys2Proof/Machine/Operands.lean ====
section
/-! DEFINITION. The values the operations compute: channel numbers (spec/30_encoding.md R71), the index advances, the
compare reload (spec/40_position.md R87), the duties, the countdown and the divider (spec/41_refresh.md R91 to R94),
and the calibration duty (R72). -/

namespace Sys2Proof.Machine

/-- Channel 0, MAP (R71). -/
def chMap : ChanNo := 0
/-- Channel 1, RPM (R71). -/
def chRpm : ChanNo := 1
/-- Channel 2, VSS (R71). -/
def chVss : ChanNo := 2
/-- Channel 3, TPS (R71). -/
def chTps : ChanNo := 3

/-- `(POS_IDX + 1) mod ROT_LEN` (R85). -/
def nextPos (p : PosNo) : PosNo := BitVec.ofNat 5 ((p.toNat + 1) % rotLen)

/-- `(ADC_IDX + 1) mod NCHAN` (R98). -/
def nextChan (k : ChanNo) : ChanNo := BitVec.ofNat 2 ((k.toNat + 1) % nChan)

/-- `next_delay(rpm, d)`, the exact product (R87). -/
def nextDelay (c : Config) (rpm : Sample) (d : Nat) : Nat := (c.baseMin + rpm.toNat) * d

/-- `tps_duty(t)`, the clamp (R91). -/
def tpsDuty (c : Config) (t : Sample) : Sample :=
  if t < c.tpsMin then c.tpsMin else if c.tpsMax < t then c.tpsMax else t

/-- `map_duty(f, m)` with the latched BARO_DUTY (R92). -/
def mapDuty (f : Bool) (baroDuty m : Sample) : Sample := if f then baroDuty else m

/-- `deb_next(d)`, which never wraps below 0 (R93). -/
def debNext (d : Nat) : Nat := if d = 0 then 0 else d - 1

/-- `vss_next(div, pin, v)`: decrement, then test for zero (R94). At div = 0 the spec gives no value: a free value
(log 11). -/
def vssNext (c : Config) (div : Nat) (pin : Bool) (v : Sample) : Nat × Bool :=
  match div with
  | 0 => Config.vssNextAtZero pin v
  | 1 => (c.vssBase + v.toNat, !pin)
  | d + 2 => (d + 1, pin)

/-- The calibration duty RESET latches (R37, R72, R136). -/
def calDuty (c : Config) : CalSel → Sample
  | .low => c.baroDutyLo
  | .high => c.baroDutyHi

/-- `(ROT_CNT + 1) mod 2^CMP_W` (R109). -/
def nextRotCnt (s : State) : Nat := (s.rotCnt + 1) % 2 ^ s.cfg.cmpW

/-- `(PWM_CNT + 1) mod 2^PWM_W` (R111). -/
def nextPwmCnt (n : BitVec 8) : BitVec 8 := BitVec.ofNat 8 ((n.toNat + 1) % 2 ^ pwmW)

end Sys2Proof.Machine
end

