-- ==== Sys2Proof/Machine/Flags.lean ====
section
/-! DEFINITION. The one-bit outputs and flags: the HEP output multiplexer (spec/40_position.md R86), RUN and BARO_FLAG
inversion (spec/43_toggles.md R104, R106) and the PWM output law (spec/44_timers_pwm.md R112). -/

namespace Sys2Proof.Machine

/-- `hep_toggle(m)`: mask 0b01 inverts HEP_A, mask 0b10 inverts HEP_B, no other mask inverts either (R86). -/
def hepToggle (m : BitVec 2) (s : State) : State :=
  if m = 0b01#2 then { s with hepA := !s.hepA }
  else if m = 0b10#2 then { s with hepB := !s.hepB }
  else s

/-- `RUN <- 1 - RUN` (R104). -/
def invertRun (s : State) : State := { s with run := !s.run }

/-- `BARO_FLAG <- 1 - BARO_FLAG` (R106). -/
def invertBaroFlag (s : State) : State := { s with baroFlag := !s.baroFlag }

/-- The PWM output law: 1 while PWM_CNT < DUTY_ACT (R112). -/
def pwmHigh (cnt duty : BitVec 8) : Bool := decide (cnt < duty)

end Sys2Proof.Machine
end

