-- ==== Sys2Proof/Machine/Adc.lean ====
section
/-! DEFINITION. ADC_DONE and FIRE_ADC, the converter's completion and the Analog Sampler (spec/42_adc.md R97 to
R101). -/

namespace Sys2Proof.Machine

/-- The body of R97. -/
def completeConversion (v : Sample) (s : State) : Result :=
  .next { s with adcRes := v, adcBusy := false, pendAdc := true }

/-- ADC_DONE v (R97): enabled only while a conversion is in progress. -/
def execAdcDone (v : Sample) (s : State) : Result := whenEnabled (fun s => s.adcBusy) (completeConversion v) s

/-- Advance the sequencer and start the next conversion on the new channel (R98, R101). -/
def nextConversion (s : State) : State :=
  { s with adcIdx := nextChan s.adcIdx, adcMux := nextChan s.adcIdx, adcBusy := true }

/-- The body of R98 after the pending bit is cleared: store the result, then start the next conversion. -/
def sampleChannel (s : State) : Result := .next (nextConversion (s.chWrite s.adcIdx s.adcRes))

/-- FIRE_ADC (R98). -/
def execFireAdc (s : State) : Result := dispatch .adc sampleChannel s

end Sys2Proof.Machine
end

