-- ==== Sys2Proof/Machine/Position.lean ====
section
/-! DEFINITION. FIRE_PSM, the Position State Machine (spec/40_position.md R85 to R89). -/

namespace Sys2Proof.Machine

/-- The second half of R85's pseudocode: advance the index and install the next delay. ROT_CNT is not written. -/
def advancePosition (s : State) : Result :=
  match s.memRead (nextPos s.posIdx) with
  | none => .refused .badIndex
  | some n =>
    .next { s with posIdx := nextPos s.posIdx, rotCmp := nextDelay s.cfg (s.chRead chRpm) (entryDelta n) }

/-- The body of R85 after the pending bit is cleared: toggle the current entry's pin, then advance. -/
def firePosition (s : State) : Result :=
  match s.memRead s.posIdx with
  | none => .refused .badIndex
  | some e => advancePosition (hepToggle (entryMask e) s)

/-- FIRE_PSM (R85). RUN = 0 does not disable it (R89). -/
def execFirePsm (s : State) : Result := dispatch .psm firePosition s

end Sys2Proof.Machine
end

