-- ==== Sys2Proof/Machine/Refresh.lean ====
section
/-! DEFINITION. FIRE_REF, the Cycle Refresh Handler (spec/41_refresh.md R90 to R95). -/

namespace Sys2Proof.Machine

/-- The body of R90 after the pending bit is cleared: the two duty registers (R91, R92), the debounce countdown (R93)
and the speed-pulse divider (R94). -/
def refreshCycle (s : State) : Result :=
  .next { s with
    dutyBufTps := tpsDuty s.cfg (s.chRead chTps)
    dutyBufMap := mapDuty s.baroFlag s.baroDuty (s.chRead chMap)
    deb := debNext s.deb
    vssDiv := (vssNext s.cfg s.vssDiv s.vssPin (s.chRead chVss)).1
    vssPin := (vssNext s.cfg s.vssDiv s.vssPin (s.chRead chVss)).2 }

/-- FIRE_REF (R90). -/
def execFireRef (s : State) : Result := dispatch .ref refreshCycle s

end Sys2Proof.Machine
end

