-- ==== Sys2Proof/Machine/Reset.lean ====
section
/-! DEFINITION. RESET (spec/70_reset_and_hazards.md R136 to R139). -/

namespace Sys2Proof.Machine

/-- The state RESET leaves: every element at its reset value (R137), BARO_DUTY by the selector, FAULT none. The
configuration and the rest of the trace are not elements of R22 and stay. -/
def powerOnReset (cal : CalSel) (s : State) : State where
  cfg := s.cfg
  trace := s.trace
  booted := true
  posIdx := 0
  run := false
  baroFlag := s.cfg.baroFlagInit
  hepA := s.cfg.hepAInit
  hepB := s.cfg.hepBInit
  rotCmp := s.cfg.cmpInit
  ch := s.cfg.adcInit
  rotCnt := 0
  adcIdx := 0
  adcMux := 0
  adcBusy := true
  adcRes := s.cfg.adcResInit
  dutyBufMap := s.cfg.dutyInitMap
  dutyBufTps := s.cfg.dutyInitTps
  dutyActMap := s.cfg.dutyInitMap
  dutyActTps := s.cfg.dutyInitTps
  pwmCnt := 0
  baroDuty := calDuty s.cfg cal
  pendPsm := false
  pendRef := false
  pendAdc := false
  pendRun := false
  pendBaro := false
  deb := 0
  vssDiv := s.cfg.vssDivInit
  vssPin := s.cfg.vssPinInit
  fault := none

/-- RESET cal (R136): only as the first event of the trace, else refused ResetNotFirst. -/
def execReset (cal : CalSel) (s : State) : Result :=
  if s.booted then .refused .resetNotFirst else .next (powerOnReset cal s)

end Sys2Proof.Machine
end

