-- ==== Sys2Proof/Machine/Timers.lean ====
section
/-! DEFINITION. ROT_TICK and PWM_TICK, the two timers (spec/44_timers_pwm.md R109 to R115). -/

namespace Sys2Proof.Machine

/-- The body of R109: a stopped timer holds; a match clears the counter, then sets PEND_PSM or raises. -/
def tickRotation (s : State) : Result :=
  if s.run = false then .next s
  else if nextRotCnt s = s.rotCmp then raiseSource .psm .deadlineMissPsm { s with rotCnt := 0 }
  else .next { s with rotCnt := nextRotCnt s }

/-- ROT_TICK (R109). -/
def execRotTick (s : State) : Result := whenEnabled (fun _ => true) tickRotation s

/-- The double-buffer latch at the overflow (R111). -/
def latchDuties (s : State) : State := { s with dutyActMap := s.dutyBufMap, dutyActTps := s.dutyBufTps }

/-- The body of R111: count, and at the overflow latch the duties, then set PEND_REF or raise. -/
def tickPwm (s : State) : Result :=
  if nextPwmCnt s.pwmCnt = 0 then
    raiseSource .ref .deadlineMissRef (latchDuties { s with pwmCnt := nextPwmCnt s.pwmCnt })
  else .next { s with pwmCnt := nextPwmCnt s.pwmCnt }

/-- PWM_TICK (R111). -/
def execPwmTick (s : State) : Result := whenEnabled (fun _ => true) tickPwm s

end Sys2Proof.Machine
end

