-- ==== Sys2Proof/Machine/Toggles.lean ====
section
/-! DEFINITION. The two edge inputs and their handlers: RUN_EDGE and FIRE_RUN with the debounce filter, BARO_EDGE and
FIRE_BARO without one (spec/43_toggles.md R103 to R108). -/

namespace Sys2Proof.Machine

/-- RUN_EDGE (R103): sets PEND_RUN, and an edge while it is set is absorbed. -/
def execRunEdge (s : State) : Result := whenEnabled (fun _ => true) (fun s => .next (s.setPending .run true)) s

/-- The body of R104 after the pending bit is cleared: a genuine edge when DEB = 0, else ignored. -/
def toggleRun (s : State) : Result :=
  if s.deb = 0 then .next { invertRun s with deb := s.cfg.debWindow } else .next s

/-- FIRE_RUN (R104). -/
def execFireRun (s : State) : Result := dispatch .run toggleRun s

/-- BARO_EDGE (R105): sets PEND_BARO, or raises DEADLINE_MISS_BARO. -/
def execBaroEdge (s : State) : Result := whenEnabled (fun _ => true) (raiseSource .baro .deadlineMissBaro) s

/-- FIRE_BARO (R106): DEB is neither read nor written. -/
def execFireBaro (s : State) : Result := dispatch .baro (fun s => .next (invertBaroFlag s)) s

end Sys2Proof.Machine
end

