-- ==== Sys2Proof/Machine/Dispatch.lean ====
section
/-! DEFINITION. The meaning of each event, one arm per constructor of Instr (spec/30_encoding.md R67). -/

namespace Sys2Proof.Machine

def exec (i : Instr) (s : State) : Host.Outcome State Fault Refusal :=
  match i with
  | .reset cal => Sys2Proof.Machine.execReset cal s
  | .rotTick => Sys2Proof.Machine.execRotTick s
  | .pwmTick => Sys2Proof.Machine.execPwmTick s
  | .adcDone v => Sys2Proof.Machine.execAdcDone v s
  | .runEdge => Sys2Proof.Machine.execRunEdge s
  | .baroEdge => Sys2Proof.Machine.execBaroEdge s
  | .firePsm => Sys2Proof.Machine.execFirePsm s
  | .fireRef => Sys2Proof.Machine.execFireRef s
  | .fireAdc => Sys2Proof.Machine.execFireAdc s
  | .fireRun => Sys2Proof.Machine.execFireRun s
  | .fireBaro => Sys2Proof.Machine.execFireBaro s

end Sys2Proof.Machine
end

