-- ==== Sys2Proof/Machine/Step.lean ====
section
/-! DEFINITION. One step of SMECSTIM-BLK (spec/00_scope.md R12): the configuration is checked before any event (R8,
R122), the next event word is taken off the trace and decoded before its place or its enabling is checked (R122), and
the event it spells runs. -/

namespace Sys2Proof.Machine

/-- The event word at the head of the trace: decode it, then run it on the rest of the trace (R59, R122). -/
def takeEvent (w : EventWord) (s : State) : Host.Outcome State Fault Refusal :=
  match decode w with
  | .error r => .refused (refusalOf r)
  | .ok i => exec i s.popEvent

/-- One step (R12). With no event left the block is idle (R134). -/
def step (s : State) : Host.Outcome State Fault Refusal :=
  match configRefusal s with
  | some r => .refused r
  | none =>
    match s.trace with
    | [] => idle s
    | w :: _ => takeEvent w s

/-- Place an event word where the step takes its next event: at the head of the trace. -/
def State.withFetchWord (s : State) (nbits w : Nat) : State := s.placeEvent (BitVec.ofNat 16 (w % 2 ^ nbits))

end Sys2Proof.Machine
end

