-- ==== Sys2Proof/Machine/Ports.lean ====
section
/-! DEFINITION. The ports of SMECSTIM-BLK (spec/10_state.md R44, R45). -/

namespace Sys2Proof.Machine

/-- The level outputs of R44. The strobe ADC_START is `adcStart`. -/
structure Outputs where
  /-- HEP_A_OUT. -/
  hepAOut : Bool
  /-- HEP_B_OUT. -/
  hepBOut : Bool
  /-- VSS_OUT. -/
  vssOut : Bool
  /-- PWM_MAP_OUT. -/
  pwmMapOut : Bool
  /-- PWM_TPS_OUT. -/
  pwmTpsOut : Bool
  /-- ROT_EN. -/
  rotEn : Bool
  /-- ADC_SEL. -/
  adcSel : ChanNo
deriving DecidableEq, Repr

/-- The outputs as functions of the state (R44, R112). -/
def State.outputs (s : State) : Outputs where
  hepAOut := s.hepA
  hepBOut := s.hepB
  vssOut := s.vssPin
  pwmMapOut := pwmHigh s.pwmCnt s.dutyActMap
  pwmTpsOut := pwmHigh s.pwmCnt s.dutyActTps
  rotEn := s.run
  adcSel := s.adcMux

/-- ADC_START: pulsed once by each FIRE_ADC that runs (R44, R98, R101), so a function of the event and the state it
runs in, not state (log 12). -/
def adcStart (i : Instr) (s : State) : Bool :=
  match i, exec i s with
  | .fireAdc, .next _ => true
  | _, _ => false

/-- The inputs of R45. CAL_SEL is the operand of reset. -/
inductive Input where
  /-- Rotation timer clock. -/
  | rotationClock
  /-- PWM timer clock. -/
  | pwmClock
  /-- Converter result and done. -/
  | converterDone (result : Sample)
  /-- Run/stop mechanical input, any edge. -/
  | runInput
  /-- Baro-mode logic input, any edge. -/
  | baroInput
  /-- Reset, with the calibration selector as it then stands. -/
  | powerOn (cal : CalSel)
deriving DecidableEq, Repr

/-- The event that delivers an input (R45). -/
def Input.event : Input → Instr
  | .rotationClock => .rotTick
  | .pwmClock => .pwmTick
  | .converterDone v => .adcDone v
  | .runInput => .runEdge
  | .baroInput => .baroEdge
  | .powerOn cal => .reset cal

end Sys2Proof.Machine
end

