-- ==== Sys2Proof/Machine/Trace.lean ====
section
/-! DEFINITION. Traces, the programs of SMECSTIM-BLK: running a list of events, the pseudo-events (spec/30_encoding.md
R77) and the textual trace syntax (R76). -/

namespace Sys2Proof.Machine

/-- Run events in order, stopping at the first fault or refusal (R59, R122). -/
def runEvents : List Instr → State → Result
  | [], s => .next s
  | i :: rest, s =>
    match exec i s with
    | .next t => runEvents rest t
    | .fault f => .fault f
    | .refused r => .refused r

/-- The pseudo-events of R77. -/
inductive PseudoEvent where
  /-- ADC_SAMPLE v: one conversion stored at the current ADC_IDX. -/
  | adcSample (v : Sample)
  /-- ADC_ROUND a b c d: four conversions. -/
  | adcRound (a b c d : Sample)
  /-- PWM_PERIOD: one full PWM period. -/
  | pwmPeriod
  /-- REFRESH: one PWM period and its refresh. -/
  | refresh
  /-- ROT_WAIT n: n rotation ticks. DESIGN CHOICE (log 13, safe): R77 gives n no range, and n = 0 is taken, with no
  event. -/
  | rotWait (n : Nat)
  /-- RUN_TOGGLE: one run/stop edge, serviced. -/
  | runToggle
  /-- BARO_TOGGLE: one baro-mode edge, serviced. -/
  | baroToggle
deriving DecidableEq, Repr

/-- The expansion of a pseudo-event (R77). -/
def PseudoEvent.expand : PseudoEvent → List Instr
  | .adcSample v => [.adcDone v, .fireAdc]
  | .adcRound a b c d =>
    [.adcDone a, .fireAdc, .adcDone b, .fireAdc, .adcDone c, .fireAdc, .adcDone d, .fireAdc]
  | .pwmPeriod => List.replicate 256 .pwmTick
  | .refresh => List.replicate 256 .pwmTick ++ [.fireRef]
  | .rotWait n => List.replicate n .rotTick
  | .runToggle => [.runEdge, .fireRun]
  | .baroToggle => [.baroEdge, .fireBaro]

/-- A blank between tokens. -/
def isBlank (c : Char) : Bool := c == ' ' || c == '\t'

/-- The tokens of a line: blanks separate them, and `*` is one by itself. -/
def tokens : List Char → List String
  | [] => []
  | c :: cs =>
    if isBlank c then tokens cs
    else if c == '*' then "*" :: tokens cs
    else
      match cs, tokens cs with
      | d :: _, t :: ts => if isBlank d || d == '*' then String.ofList [c] :: t :: ts
          else String.ofList (c :: t.toList) :: ts
      | _, ts => String.ofList [c] :: ts

/-- The value of a decimal digit. -/
def decDigit (c : Char) : Option Nat :=
  if '0' ≤ c ∧ c ≤ '9' then some (c.toNat - '0'.toNat) else none

/-- The value of a hexadecimal digit, either case (log 13). -/
def hexDigit (c : Char) : Option Nat :=
  if 'A' ≤ c ∧ c ≤ 'F' then some (c.toNat - 'A'.toNat + 10)
  else if 'a' ≤ c ∧ c ≤ 'f' then some (c.toNat - 'a'.toNat + 10)
  else decDigit c

/-- A number in a base, from its digits. -/
def digits (base : Nat) (digit : Char → Option Nat) : Nat → List Char → Option Nat
  | acc, [] => some acc
  | acc, c :: cs => (digit c).bind fun d => digits base digit (acc * base + d) cs

/-- `decimal`: one digit or more. -/
def decimal (t : String) : Option Nat :=
  match t.toList with
  | [] => none
  | cs => digits 10 decDigit 0 cs

/-- `imm8`: decimal 0..255, or "0x" and two hexadecimal digits (R76). -/
def imm8 (t : String) : Option Sample :=
  let value := match t.toList with
    | ['0', 'x', a, b] => digits 16 hexDigit 0 [a, b]
    | _ => decimal t
  value.bind fun n => if n ≤ 255 then some (BitVec.ofNat 8 n) else none

/-- The events of `event`, or of a pseudo-event (R76, R77). The n of ROT_WAIT is any decimal, 0 included, unlike a
`count` (DESIGN CHOICE, log 13, safe). -/
def lineEvents : List String → Option (List Instr)
  | ["RESET", "LOW"] => some [.reset .low]
  | ["RESET", "HIGH"] => some [.reset .high]
  | ["ROT_TICK"] => some [.rotTick]
  | ["PWM_TICK"] => some [.pwmTick]
  | ["ADC_DONE", v] => (imm8 v).map fun x => [.adcDone x]
  | ["RUN_EDGE"] => some [.runEdge]
  | ["BARO_EDGE"] => some [.baroEdge]
  | ["FIRE_PSM"] => some [.firePsm]
  | ["FIRE_REF"] => some [.fireRef]
  | ["FIRE_ADC"] => some [.fireAdc]
  | ["FIRE_RUN"] => some [.fireRun]
  | ["FIRE_BARO"] => some [.fireBaro]
  | ["ADC_SAMPLE", v] => (imm8 v).map fun x => (PseudoEvent.adcSample x).expand
  | ["ADC_ROUND", a, b, c, d] =>
    (imm8 a).bind fun a => (imm8 b).bind fun b => (imm8 c).bind fun c => (imm8 d).map fun d =>
      (PseudoEvent.adcRound a b c d).expand
  | ["PWM_PERIOD"] => some PseudoEvent.pwmPeriod.expand
  | ["REFRESH"] => some PseudoEvent.refresh.expand
  | ["ROT_WAIT", n] => (decimal n).map fun n => (PseudoEvent.rotWait n).expand
  | ["RUN_TOGGLE"] => some PseudoEvent.runToggle.expand
  | ["BARO_TOGGLE"] => some PseudoEvent.baroToggle.expand
  | _ => none

/-- `count`: a decimal of at least 1 (R76). -/
def countOf (t : String) : Option Nat := (decimal t).bind fun n => if 1 ≤ n then some n else none

/-- `event ["*" count]`, or nothing (R76). -/
def tokenEvents (ts : List String) : Option (List Instr) :=
  match ts.span fun t => t != "*" with
  | ([], []) => some []
  | (ev, []) => lineEvents ev
  | (ev, [_, n]) => (lineEvents ev).bind fun es => (countOf n).map fun k => (List.replicate k es).flatten
  | _ => none

/-- One line of a trace: a comment starts at ';' (R76). `none` for a line the syntax does not have. -/
def assembleLine (line : List Char) : Option (List Instr) := tokenEvents (tokens (line.takeWhile fun c => c != ';'))

/-- A trace text, line by line, as event words (R76). -/
def assemble : List String → Option (List EventWord)
  | [] => some []
  | l :: ls => (assembleLine l.toList).bind fun es => (assemble ls).map fun ws => es.map encode ++ ws

end Sys2Proof.Machine
end

