-- ==== Sys2Proof/Safety.lean ====
section
/-! DEFINITION. What claims about SMECSTIM-BLK are stated in: the invariants of spec/10_state.md R43, reachable states,
meeting the deadline and the compare re-arm race (spec/70_reset_and_hazards.md R140, R141), fairness of
dispatch (spec/60_exceptions.md R135) and the sampling loop that never stops (spec/42_adc.md R100). -/

namespace Sys2Proof.Machine

/-- A configuration every check of R8 accepts. -/
abbrev ValidConfig (c : Config) : Prop := c.failedCheck = none

/-- The trace's RESET has happened and no fault is recorded (R121, R122). -/
abbrev Live (s : State) : Prop := s.booted = true ∧ s.fault = none

/-- The invariants of R43, with the widths of R29 and R40 that its naturals do not carry in their types. -/
structure Consistent (s : State) : Prop where
  /-- POS_IDX < ROT_LEN. -/
  posIdx_lt : s.posIdx.toNat < rotLen
  /-- ADC_MUX = ADC_IDX. -/
  mux_eq : s.adcMux = s.adcIdx
  /-- Exactly one conversion is in progress or completed and unserviced. -/
  one_conversion : s.adcBusy = !s.pendAdc
  /-- 1 <= VSS_DIV. -/
  vssDiv_pos : 1 ≤ s.vssDiv
  /-- VSS_DIV <= max(VSS_DIV_INIT, VSS_BASE + 255). -/
  vssDiv_le : s.vssDiv ≤ max s.cfg.vssDivInit (s.cfg.vssBase + 255)
  /-- VSS_DIV fits VSS_W bits (R40). -/
  vssDiv_lt : s.vssDiv < 2 ^ s.cfg.vssW
  /-- 1 <= ROT_CMP. -/
  rotCmp_pos : 1 ≤ s.rotCmp
  /-- ROT_CMP <= 2^CMP_W - 1. -/
  rotCmp_le : s.rotCmp ≤ 2 ^ s.cfg.cmpW - 1
  /-- ROT_CNT fits CMP_W bits (R29). -/
  rotCnt_lt : s.rotCnt < 2 ^ s.cfg.cmpW
  /-- DEB <= DEB_WINDOW. -/
  deb_le : s.deb ≤ s.cfg.debWindow

/-- What every step keeps: a valid configuration, and R43 once RESET has happened. -/
structure MachineInv (s : State) : Prop where
  /-- The configuration passes every check of R8. -/
  valid : ValidConfig s.cfg
  /-- After RESET the invariants of R43 hold. -/
  consistent : s.booted = true → Consistent s

/-- The states reached from RESET by enabled events (R43). -/
inductive Reached : State → Prop where
  /-- The state a RESET leaves, under a valid configuration. -/
  | reset (cal : CalSel) (s t : State) : ValidConfig s.cfg → exec (.reset cal) s = .next t → Reached t
  /-- The state an enabled event leaves. -/
  | event (i : Instr) (s t : State) : Reached s → exec i s = .next t → Reached t

/-- The compare re-arm race (R141): a FIRE_PSM that runs at s writes a compare value the counter has already reached. -/
def RearmRace (s : State) : Prop := ∃ t, exec .firePsm s = .next t ∧ t.rotCmp ≤ t.rotCnt

/-- A run meets the deadline: it ends in no fault and no re-arm race occurs in it (R140). -/
def MeetsDeadline : List Instr → State → Prop
  | [], _ => True
  | i :: es, s => (i = .firePsm → ¬ RearmRace s) ∧ ∃ t, exec i s = .next t ∧ MeetsDeadline es t

/-- An infinite run: event n takes the n-th state to the next one. -/
def InfiniteRun (states : Nat → State) (events : Nat → Instr) : Prop :=
  ∀ n, exec (events n) (states n) = .next (states (n + 1))

/-- Weak fairness (R135): an operation that stays enabled is eventually dispatched. "Enabled" is R127's word, so each
match of the rotation timer interrupts it for the four other sources (R128); R100 needs FairDispatch (logs 15, 18). -/
def WeaklyFair (states : Nat → State) (events : Nat → Instr) : Prop :=
  ∀ (src : Source) (n : Nat), (∀ m, n ≤ m → ∃ t, exec src.fire (states m) = .next t) → ∃ m, n ≤ m ∧ events m = src.fire

/-- DEDUCED (log 18, unsafe): the fairness R100's last sentence needs. An operation that stays pending is eventually
dispatched, whether or not firings of PSM come in between. It implies WeaklyFair. -/
def FairDispatch (states : Nat → State) (events : Nat → Instr) : Prop :=
  ∀ (src : Source) (n : Nat), (∀ m, n ≤ m → (states m).pending src = true) → ∃ m, n ≤ m ∧ events m = src.fire

/-- A converter that completes every started conversion (R100). -/
def ConverterCompletes (states : Nat → State) (events : Nat → Instr) : Prop :=
  ∀ n, (states n).adcBusy = true → ∃ m v, n ≤ m ∧ events m = .adcDone v

/-- Every channel is refreshed infinitely often (R100): after any point, some FIRE_ADC stores a result in it. -/
def ChannelsRefreshedForever (states : Nat → State) (events : Nat → Instr) : Prop :=
  ∀ (k : ChanNo) (n : Nat), ∃ m, n ≤ m ∧ events m = .fireAdc ∧ (states m).adcIdx = k ∧
    (states (m + 1)).chRead k = (states m).adcRes

/-- The ROT_CMP values that n consecutive FIRE_PSM operations write, and the state after the last, each firing pending
again as its match leaves it. None when one does not run. -/
def firings : Nat → State → Option (List Nat × State)
  | 0, s => some ([], s)
  | n + 1, s =>
    match exec .firePsm (s.setPending .psm true) with
    | .next t => (firings n t).map fun r => (t.rotCmp :: r.1, r.2)
    | _ => none

end Sys2Proof.Machine
end

