-- ==== Sys2Proof/Certificates/Slice0/Obligations.lean ====
section
/-! DEFINITION. The statements of the model, each from a numbered rule of spec/ (OBLIGATIONS.json lists them with their
rules). Each holds for every configuration and every value of every OPEN parameter, since State carries them. -/

open Sys2Proof Sys2Proof.Machine

/-! ## Encoding -/

/-- R66 to R68: the decoder gives back every event the encoder writes, with every operand. -/
def Obligations.DecodeOfEncodeIsTheEvent : Prop := ∀ i : Instr, decode (encode i) = .ok i

/-- R66, R67: an event has one word only: a word that decodes to an event is that event's word. -/
def Obligations.EveryDecodedWordIsTheEventsWord : Prop :=
  ∀ (w : EventWord) (i : Instr), decode w = .ok i → encode i = w

/-- R73, R74: a word is refused ReservedCode exactly when its code is reserved; one with a code of R67 is refused
ReservedBits exactly when rsv is not 0 or an operand bit that R68 requires to be 0 is not; every other word is an
event. The fields are read off the word's number. -/
def Obligations.DecoderRefusesExactlyReservedWords : Prop :=
  ∀ w : EventWord,
    let code := w.toNat / 4096
    let rsv := w.toNat / 256 % 16
    let opnd := w.toNat % 256
    let reserved := code = 6 ∨ code = 7 ∨ 13 ≤ code
    let badBits := rsv ≠ 0 ∨ (code = 0 ∧ 2 ≤ opnd) ∨ (code ≠ 0 ∧ code ≠ 3 ∧ opnd ≠ 0)
    (decode w = .error .reservedCode ↔ reserved) ∧
    (decode w = .error .reservedBits ↔ ¬ reserved ∧ badBits) ∧
    ((∃ i, decode w = .ok i) ↔ ¬ reserved ∧ ¬ badBits)

/-- R76: the words the spec writes out for the mnemonics (a sanity statement). -/
def Obligations.ListedWordsDecodeToTheirMnemonics : Prop :=
  decode 0x0000#16 = .ok (.reset .low) ∧ decode 0x0001#16 = .ok (.reset .high) ∧
  decode 0x1000#16 = .ok .rotTick ∧ decode 0x2000#16 = .ok .pwmTick ∧
  decode 0x307F#16 = .ok (.adcDone 0x7F#8) ∧ decode 0x30FF#16 = .ok (.adcDone 255#8) ∧
  decode 0x4000#16 = .ok .runEdge ∧ decode 0x5000#16 = .ok .baroEdge ∧
  decode 0x8000#16 = .ok .firePsm ∧ decode 0x9000#16 = .ok .fireRef ∧ decode 0xA000#16 = .ok .fireAdc ∧
  decode 0xB000#16 = .ok .fireRun ∧ decode 0xC000#16 = .ok .fireBaro

/-- R69: the fields of an entry word, read off its number: delta is bits 15..0 and mask bits 17..16. -/
def Obligations.EntryWordFieldsAreDeltaAndMask : Prop :=
  ∀ e : EntryWord, entryDelta e = e.toNat % 65536 ∧ (entryMask e).toNat = e.toNat / 65536

/-! ## Configuration and step -/

/-- R8: each named check holds exactly when its line of the rule does; a configuration is accepted exactly when every
check holds; and one that fails a check is refused before any event, naming a check it fails. Two clauses are the model's own
(log 9): that cfg_widths bounds CMP_INIT and VSS_DIV_INIT and nothing else is DEDUCED, and that the refusal comes at
every step is a DESIGN CHOICE. -/
def Obligations.ConfigurationChecksAreNamedAndRefused : Prop :=
  ∀ c : Config,
    (c.passes .tableLen = true ↔ c.rotTable.length = 20) ∧
    (c.passes .maskOnehot = true ↔ ∀ e ∈ c.rotTable, entryMask e = 0b01#2 ∨ entryMask e = 0b10#2) ∧
    (c.passes .deltaNonzero = true ↔ (∀ e ∈ c.rotTable, 1 ≤ entryDelta e) ∧ 1 ≤ c.baseMin) ∧
    (c.passes .cmpFits = true ↔
      (∀ e ∈ c.rotTable, (c.baseMin + 255) * entryDelta e ≤ 2 ^ c.cmpW - 1) ∧ 1 ≤ c.cmpInit) ∧
    (c.passes .tpsOrder = true ↔ c.tpsMin.toNat ≤ c.tpsMax.toNat) ∧
    (c.passes .deb = true ↔ 1 ≤ c.debWindow ∧ c.debWindow ≤ 2 ^ c.debW - 1) ∧
    (c.passes .vss = true ↔ 1 ≤ c.vssBase ∧ c.vssBase + 255 ≤ 2 ^ c.vssW - 1 ∧ 1 ≤ c.vssDivInit) ∧
    (c.passes .widths = true ↔ c.cmpInit < 2 ^ c.cmpW ∧ c.vssDivInit < 2 ^ c.vssW) ∧
    (ValidConfig c ↔ ∀ k, c.passes k = true) ∧
    (∀ s : State, s.cfg = c → ¬ ValidConfig c → ∃ k, c.passes k = false ∧ step s = .refused (.badConfig k))

/-- R12, R122: when the configuration is valid and the next word of the trace decodes to i, the step is exec of i at the
state with that word taken off the trace. -/
def Obligations.StepRunsTheDecodedEvent : Prop :=
  ∀ (s : State) (w : EventWord) (rest : List EventWord) (i : Instr),
    ValidConfig s.cfg → s.trace = w :: rest → decode w = .ok i → step s = exec i { s with trace := rest }

/-- R122, R73, R74: a word that spells no event is refused with the decoder's reason whatever the rest of the state is,
so decoding comes before the word's place in the trace and before enabling. -/
def Obligations.StepRefusesUndecodableWordFirst : Prop :=
  ∀ (s : State) (w : EventWord) (rest : List EventWord), ValidConfig s.cfg → s.trace = w :: rest →
    (decode w = .error .reservedCode → step s = .refused .reservedCode) ∧
    (decode w = .error .reservedBits → step s = .refused .reservedBits)

/-- R75, R134, and the model's own choice (log 7): with no event left the block is idle and keeps every element. -/
def Obligations.IdleBlockKeepsItsState : Prop :=
  ∀ s : State, ValidConfig s.cfg → s.trace = [] → step s = .next s

/-- R5, R59: a trace of the words of some events, followed by any words, runs exactly those events in order. -/
def Obligations.TraceOfWordsRunsItsEvents : Prop :=
  ∀ (es : List Instr) (rest : List EventWord) (s t : State), ValidConfig s.cfg →
    runEvents es { s with trace := rest } = .next t →
    core.run es.length ({ s with trace := es.map encode ++ rest } : State) = .next t

/-! ## RESET -/

/-- R136, with R137's values: RESET as the first event leaves every element at its reset value; anywhere else it is
refused ResetNotFirst, and any other event before it NoReset. ADC_RES is some 8-bit value (R33), which this does not
fix. -/
def Obligations.ResetLeavesTheStatedValues : Prop :=
  encode (.reset .low) = 0x0000#16 ∧ encode (.reset .high) = 0x0001#16 ∧
  ∀ (cal : CalSel) (s : State),
    (s.booted = false → ∃ res : Sample, exec (.reset cal) s = .next
      { cfg := s.cfg, trace := s.trace, booted := true, posIdx := 0, run := false, baroFlag := s.cfg.baroFlagInit,
        hepA := s.cfg.hepAInit, hepB := s.cfg.hepBInit, rotCmp := s.cfg.cmpInit, ch := s.cfg.adcInit, rotCnt := 0,
        adcIdx := 0, adcMux := 0, adcBusy := true, adcRes := res,
        dutyBufMap := s.cfg.dutyInitMap, dutyBufTps := s.cfg.dutyInitTps,
        dutyActMap := s.cfg.dutyInitMap, dutyActTps := s.cfg.dutyInitTps, pwmCnt := 0,
        baroDuty := if cal = .low then s.cfg.baroDutyLo else s.cfg.baroDutyHi,
        pendPsm := false, pendRef := false, pendAdc := false, pendRun := false, pendBaro := false, deb := 0,
        vssDiv := s.cfg.vssDivInit, vssPin := s.cfg.vssPinInit, fault := none }) ∧
    (s.booted = true → exec (.reset cal) s = .refused .resetNotFirst) ∧
    (∀ i : Instr, (∀ c, i ≠ .reset c) → s.booted = false → exec i s = .refused .noReset)

/-! ## The two timers -/

/-- R109: ROT_TICK. -/
def Obligations.RotTickCountsMatchesOrMissesDeadline : Prop :=
  encode .rotTick = 0x1000#16 ∧
  ∀ s : State, s.booted = true →
    (s.fault ≠ none → exec .rotTick s = .refused .notEnabled) ∧
    (s.fault = none →
      (s.run = false → exec .rotTick s = .next s) ∧
      (s.run = true → (s.rotCnt + 1) % 2 ^ s.cfg.cmpW ≠ s.rotCmp →
        exec .rotTick s = .next { s with rotCnt := (s.rotCnt + 1) % 2 ^ s.cfg.cmpW }) ∧
      (s.run = true → (s.rotCnt + 1) % 2 ^ s.cfg.cmpW = s.rotCmp → s.pendPsm = false →
        exec .rotTick s = .next { s with rotCnt := 0, pendPsm := true }) ∧
      (s.run = true → (s.rotCnt + 1) % 2 ^ s.cfg.cmpW = s.rotCmp → s.pendPsm = true →
        exec .rotTick s = .fault (.raised .deadlineMissPsm
          { s with rotCnt := 0, fault := some .deadlineMissPsm })))

/-- R111: PWM_TICK. -/
def Obligations.PwmTickCountsLatchesOrMissesDeadline : Prop :=
  encode .pwmTick = 0x2000#16 ∧
  ∀ s : State, s.booted = true →
    (s.fault ≠ none → exec .pwmTick s = .refused .notEnabled) ∧
    (s.fault = none →
      (s.pwmCnt.toNat < 255 → exec .pwmTick s = .next { s with pwmCnt := s.pwmCnt + 1#8 }) ∧
      (s.pwmCnt.toNat = 255 → s.pendRef = false →
        exec .pwmTick s = .next { s with pwmCnt := 0, dutyActMap := s.dutyBufMap, dutyActTps := s.dutyBufTps,
                                         pendRef := true }) ∧
      (s.pwmCnt.toNat = 255 → s.pendRef = true →
        exec .pwmTick s = .fault (.raised .deadlineMissRef
          { s with pwmCnt := 0, dutyActMap := s.dutyBufMap, dutyActTps := s.dutyBufTps,
                   fault := some .deadlineMissRef })))

/-- R110, from R109: while RUN = 1 with the counter below the compare value, the next match comes after exactly the
ticks that are left, and no tick before it sets PEND_PSM or changes anything but the counter. -/
def Obligations.MatchComesAfterTheTicksLeft : Prop :=
  ∀ s : State, Live s → s.run = true → s.pendPsm = false → s.rotCnt < s.rotCmp → s.rotCmp < 2 ^ s.cfg.cmpW →
    (∀ n, s.rotCnt + n < s.rotCmp →
      runEvents (List.replicate n .rotTick) s = .next { s with rotCnt := s.rotCnt + n }) ∧
    runEvents (List.replicate (s.rotCmp - s.rotCnt) .rotTick) s = .next { s with rotCnt := 0, pendPsm := true }

/-- R141, from R109: when the counter has already reached a compare value C >= 1, the counter must wrap first: the
match comes 2^CMP_W - ROT_CNT + C ticks later, no fault is raised and no earlier tick sets PEND_PSM. -/
def Obligations.RearmRaceDelaysTheMatchByAWrap : Prop :=
  ∀ s : State, Live s → s.run = true → s.pendPsm = false → 1 ≤ s.rotCmp → s.rotCmp ≤ s.rotCnt →
    s.rotCnt < 2 ^ s.cfg.cmpW →
    (∀ n, n < 2 ^ s.cfg.cmpW - s.rotCnt + s.rotCmp →
      runEvents (List.replicate n .rotTick) s = .next { s with rotCnt := (s.rotCnt + n) % 2 ^ s.cfg.cmpW }) ∧
    runEvents (List.replicate (2 ^ s.cfg.cmpW - s.rotCnt + s.rotCmp) .rotTick) s =
      .next { s with rotCnt := 0, pendPsm := true }

/-- R144, from R109 and R104: a stopped rotation is frozen through any events without a FIRE_RUN: RUN and ROT_CNT stay,
and, unless a firing was pending at the stop, so do POS_IDX, ROT_CMP and both HEP pins. -/
def Obligations.StoppedRotationIsFrozen : Prop :=
  ∀ (es : List Instr) (s t : State), s.booted = true → s.run = false → .fireRun ∉ es → runEvents es s = .next t →
    t.run = false ∧ t.rotCnt = s.rotCnt ∧
    (s.pendPsm = false → t.pendPsm = false ∧ t.posIdx = s.posIdx ∧ t.rotCmp = s.rotCmp ∧
      t.hepA = s.hepA ∧ t.hepB = s.hepB)

/-- R114, from R111: 256 ticks are one PWM period whatever the count they start at: one overflow, which latches both
duties and makes the refresh pending, or is a missed deadline when the refresh was still pending. -/
def Obligations.PwmPeriodIs256Ticks : Prop :=
  ∀ s : State, Live s →
    (s.pendRef = false → runEvents PseudoEvent.pwmPeriod.expand s =
      .next { s with dutyActMap := s.dutyBufMap, dutyActTps := s.dutyBufTps, pendRef := true }) ∧
    (s.pendRef = true → runEvents PseudoEvent.pwmPeriod.expand s =
      .fault (.raised .deadlineMissRef { s with pwmCnt := 0, dutyActMap := s.dutyBufMap, dutyActTps := s.dutyBufTps,
                                                fault := some .deadlineMissRef }))

/-- R113, from R111: until the counter overflows, no event of any kind changes an active duty. -/
def Obligations.ActiveDutiesHoldThroughThePeriod : Prop :=
  ∀ (es : List Instr) (s t : State), s.booted = true → runEvents es s = .next t →
    s.pwmCnt.toNat + es.count .pwmTick < 256 →
    t.pwmCnt.toNat = s.pwmCnt.toNat + es.count .pwmTick ∧ t.dutyActMap = s.dutyActMap ∧
    t.dutyActTps = s.dutyActTps

/-- R112: each PWM output is 1 exactly while PWM_CNT < DUTY_ACT, so over the 256 counter values it is 1 for exactly
DUTY_ACT of them. -/
def Obligations.PwmOutputIsHighForDutyCounts : Prop :=
  ∀ s : State,
    (s.outputs.pwmMapOut = true ↔ s.pwmCnt.toNat < s.dutyActMap.toNat) ∧
    (s.outputs.pwmTpsOut = true ↔ s.pwmCnt.toNat < s.dutyActTps.toNat) ∧
    (List.range 256).countP (fun c => ({ s with pwmCnt := BitVec.ofNat 8 c } : State).outputs.pwmMapOut) =
      s.dutyActMap.toNat ∧
    (List.range 256).countP (fun c => ({ s with pwmCnt := BitVec.ofNat 8 c } : State).outputs.pwmTpsOut) =
      s.dutyActTps.toNat

/-! ## FIRE_PSM -/

/-- R85, with R86 and R87: FIRE_PSM toggles the current entry's pin, advances POS_IDX modulo 20 and installs
(BASE_MIN + CH[1]) times the delta of the entry at the new index. It runs whatever RUN is (R89). Table reads are in
range under a valid configuration and POS_IDX < ROT_LEN (R43). -/
def Obligations.FirePsmTogglesAdvancesAndReloads : Prop :=
  encode .firePsm = 0x8000#16 ∧
  ∀ s : State, s.booted = true →
    (¬ (s.fault = none ∧ s.pendPsm = true) → exec .firePsm s = .refused .notEnabled) ∧
    (s.fault = none → s.pendPsm = true → ValidConfig s.cfg → s.posIdx.toNat < 20 →
      ∃ e n : EntryWord,
        s.cfg.rotTable[s.posIdx.toNat]? = some e ∧ s.cfg.rotTable[(s.posIdx.toNat + 1) % 20]? = some n ∧
        exec .firePsm s = .next { s with
          pendPsm := false
          hepA := if entryMask e = 0b01#2 then !s.hepA else s.hepA
          hepB := if entryMask e = 0b10#2 then !s.hepB else s.hepB
          posIdx := BitVec.ofNat 5 ((s.posIdx.toNat + 1) % 20)
          rotCmp := (s.cfg.baseMin + s.ch[1].toNat) * entryDelta n })

/-- R86: under a valid configuration FIRE_PSM inverts exactly one HEP pin, the one the current entry's mask selects. -/
def Obligations.FirePsmInvertsExactlyTheSelectedPin : Prop :=
  ∀ s : State, Live s → s.pendPsm = true → ValidConfig s.cfg → s.posIdx.toNat < 20 →
    ∃ (e : EntryWord) (t : State), s.cfg.rotTable[s.posIdx.toNat]? = some e ∧ exec .firePsm s = .next t ∧
      ((entryMask e = 0b01#2 ∧ t.hepA = !s.hepA ∧ t.hepB = s.hepB) ∨
       (entryMask e = 0b10#2 ∧ t.hepA = s.hepA ∧ t.hepB = !s.hepB))

/-- R87: the reload is the exact product, within [BASE_MIN * d, (BASE_MIN + 255) * d], at least 1 and at most
2^CMP_W - 1, and strictly increasing in the RPM sample. -/
def Obligations.CompareReloadFitsAndIncreasesWithSample : Prop :=
  ∀ (s : State) (r r' : Sample), Live s → s.pendPsm = true → ValidConfig s.cfg → s.posIdx.toNat < 20 →
    r.toNat < r'.toNat →
    ∃ (n : EntryWord) (t t' : State), s.cfg.rotTable[(s.posIdx.toNat + 1) % 20]? = some n ∧
      exec .firePsm { s with ch := s.ch.set 1 r } = .next t ∧
      exec .firePsm { s with ch := s.ch.set 1 r' } = .next t' ∧
      t.rotCmp = (s.cfg.baseMin + r.toNat) * entryDelta n ∧ t'.rotCmp = (s.cfg.baseMin + r'.toNat) * entryDelta n ∧
      1 ≤ s.cfg.baseMin * entryDelta n ∧ s.cfg.baseMin * entryDelta n ≤ t.rotCmp ∧ t.rotCmp < t'.rotCmp ∧
      t'.rotCmp ≤ (s.cfg.baseMin + 255) * entryDelta n ∧
      (s.cfg.baseMin + 255) * entryDelta n ≤ 2 ^ s.cfg.cmpW - 1

/-- R51: a table read inside the table gives its entry, and FIRE_PSM at an index outside the table, which no run
forms, is refused BadIndex. -/
def Obligations.TableReadsInRangeAndRefusedOutside : Prop :=
  ∀ s : State, ValidConfig s.cfg →
    (∀ i : PosNo, i.toNat < 20 → s.memRead i = s.cfg.rotTable[i.toNat]? ∧ (s.memRead i).isSome) ∧
    (Live s → s.pendPsm = true → 20 ≤ s.posIdx.toNat → exec .firePsm s = .refused .badIndex)

/-- R88: over any run, POS_IDX advances by one, modulo 20, per FIRE_PSM and by nothing else, so 20 firings return it to
where it was. -/
def Obligations.PositionCountsFiringsModTwenty : Prop :=
  ∀ (es : List Instr) (s t : State), s.booted = true → s.posIdx.toNat < 20 → runEvents es s = .next t →
    t.posIdx.toNat = (s.posIdx.toNat + es.count .firePsm) % 20

/-- R88, period stability: from any index and with one RPM sample r, 20 consecutive firings all run, return POS_IDX, and
the ROT_CMP values they write sum to (BASE_MIN + r) times the sum of the table's deltas. -/
def Obligations.CycleOfTwentyFiringsHasConstantPeriod : Prop :=
  ∀ s : State, Live s → ValidConfig s.cfg → s.posIdx.toNat < 20 →
    ∃ (cmps : List Nat) (t : State), firings 20 s = some (cmps, t) ∧ t.posIdx = s.posIdx ∧
      cmps.sum = (s.cfg.baseMin + s.ch[1].toNat) * (s.cfg.rotTable.map entryDelta).sum

/-- R88, pin parity: over a cycle of 20 firings from any index, a HEP pin ends at the level it started from exactly when
the number of table entries that select it is even. -/
def Obligations.CycleOfTwentyFiringsTogglesPinsPerEntry : Prop :=
  ∀ s : State, Live s → ValidConfig s.cfg → s.posIdx.toNat < 20 →
    ∃ (cmps : List Nat) (t : State), firings 20 s = some (cmps, t) ∧
      (t.hepA = s.hepA ↔ (s.cfg.rotTable.countP fun e => entryMask e = 0b01#2) % 2 = 0) ∧
      (t.hepB = s.hepB ↔ (s.cfg.rotTable.countP fun e => entryMask e = 0b10#2) % 2 = 0)

/-! ## FIRE_REF -/

/-- R90, with R91 to R94: FIRE_REF writes both duty registers, counts DEB down and steps the speed divider. In the one
case R94 does not give, VSS_DIV = 0, which no run reaches, the divider and the pin are left open here (log 11). -/
def Obligations.FireRefRefreshesDutiesAndCounters : Prop :=
  encode .fireRef = 0x9000#16 ∧
  ∀ s : State, s.booted = true →
    (¬ (s.fault = none ∧ s.pendRef = true ∧ s.pendPsm = false) → exec .fireRef s = .refused .notEnabled) ∧
    (s.fault = none → s.pendRef = true → s.pendPsm = false →
      ∃ (div : Nat) (pin : Bool),
        exec .fireRef s = .next { s with
          pendRef := false
          dutyBufTps := if s.ch[3].toNat < s.cfg.tpsMin.toNat then s.cfg.tpsMin
            else if s.cfg.tpsMax.toNat < s.ch[3].toNat then s.cfg.tpsMax else s.ch[3]
          dutyBufMap := if s.baroFlag = true then s.baroDuty else s.ch[0]
          deb := if s.deb ≠ 0 then s.deb - 1 else 0
          vssDiv := div
          vssPin := pin } ∧
        (2 ≤ s.vssDiv → div = s.vssDiv - 1 ∧ pin = s.vssPin) ∧
        (s.vssDiv = 1 → div = s.cfg.vssBase + s.ch[2].toNat ∧ pin = !s.vssPin))

/-- R91: the TPS duty that FIRE_REF publishes is the clamped sample and always lies within the bounds. -/
def Obligations.TpsDutyIsClampedIntoItsBounds : Prop :=
  ∀ s : State, Live s → s.pendRef = true → s.pendPsm = false → ValidConfig s.cfg →
    ∃ t, exec .fireRef s = .next t ∧
      (s.ch[3].toNat < s.cfg.tpsMin.toNat → t.dutyBufTps = s.cfg.tpsMin) ∧
      (s.cfg.tpsMax.toNat < s.ch[3].toNat → t.dutyBufTps = s.cfg.tpsMax) ∧
      (s.cfg.tpsMin.toNat ≤ s.ch[3].toNat → s.ch[3].toNat ≤ s.cfg.tpsMax.toNat → t.dutyBufTps = s.ch[3]) ∧
      s.cfg.tpsMin.toNat ≤ t.dutyBufTps.toNat ∧ t.dutyBufTps.toNat ≤ s.cfg.tpsMax.toNat

/-- R92: with BARO_FLAG = 1 the MAP duty is BARO_DUTY and the whole result of FIRE_REF is the same for every live MAP
sample; with BARO_FLAG = 0 it is the live sample, not clamped. -/
def Obligations.MapDutyIsIndependentOfSampleInBaroMode : Prop :=
  ∀ (s : State) (m : Sample), Live s → s.pendRef = true → s.pendPsm = false →
    ∃ t t' : State, exec .fireRef s = .next t ∧ exec .fireRef { s with ch := s.ch.set 0 m } = .next t' ∧
      (s.baroFlag = true → t.dutyBufMap = s.baroDuty ∧ t' = { t with ch := s.ch.set 0 m }) ∧
      (s.baroFlag = false → t.dutyBufMap = s.ch[0] ∧ t'.dutyBufMap = m)

/-- R95, from R94: over any run the divider counts the FIRE_REF operations: fewer than VSS_DIV of them leave VSS_PIN and
take VSS_DIV down by their number, and the one that makes them VSS_DIV in number inverts VSS_PIN and reloads
VSS_BASE + CH[2]. -/
def Obligations.SpeedPinInvertsOncePerDividerCount : Prop :=
  ∀ (es : List Instr) (s t : State), s.booted = true → runEvents es s = .next t →
    (es.count .fireRef < s.vssDiv → t.vssPin = s.vssPin ∧ t.vssDiv = s.vssDiv - es.count .fireRef) ∧
    (es.count .fireRef + 1 = s.vssDiv → ∀ u, exec .fireRef t = .next u →
      u.vssPin = (!s.vssPin) ∧ u.vssDiv = s.cfg.vssBase + t.ch[2].toNat)

/-! ## The converter and the sampler -/

/-- R97: ADC_DONE v is enabled exactly while a conversion is in progress, and then records the result and makes the
sampler pending. -/
def Obligations.AdcDoneRecordsTheResult : Prop :=
  (∀ v : Sample, (encode (.adcDone v)).toNat = 0x3000 + v.toNat) ∧
  ∀ (s : State) (v : Sample), s.booted = true →
    (¬ (s.fault = none ∧ s.adcBusy = true) → exec (.adcDone v) s = .refused .notEnabled) ∧
    (s.fault = none → s.adcBusy = true →
      exec (.adcDone v) s = .next { s with adcRes := v, adcBusy := false, pendAdc := true })

/-- R98: FIRE_ADC stores the result in CH[ADC_IDX] and in no other channel, advances ADC_IDX modulo 4, sets ADC_MUX to
the new index and starts the next conversion. -/
def Obligations.FireAdcStoresAndStartsNextChannel : Prop :=
  encode .fireAdc = 0xA000#16 ∧
  ∀ s : State, s.booted = true →
    (¬ (s.fault = none ∧ s.pendAdc = true ∧ s.pendPsm = false) → exec .fireAdc s = .refused .notEnabled) ∧
    (s.fault = none → s.pendAdc = true → s.pendPsm = false →
      ∃ file : Vector Sample 4,
        exec .fireAdc s = .next { s with
          pendAdc := false
          ch := file
          adcIdx := BitVec.ofNat 2 ((s.adcIdx.toNat + 1) % 4)
          adcMux := BitVec.ofNat 2 ((s.adcIdx.toNat + 1) % 4)
          adcBusy := true } ∧
        adcStart .fireAdc s = true ∧
        ∀ k : Fin 4, file.get k = if k.val = s.adcIdx.toNat then s.adcRes else s.ch.get k)

/-- R100: over any run, ADC_IDX advances by one, modulo 4, per FIRE_ADC and by nothing else. -/
def Obligations.SequencerCountsSamplesModFour : Prop :=
  ∀ (es : List Instr) (s t : State), s.booted = true → runEvents es s = .next t →
    t.adcIdx.toNat = (s.adcIdx.toNat + es.count .fireAdc) % 4

/-- R100, R77: from any ADC_IDX = k, four conversions in turn fill CH[k], CH[k+1], CH[k+2], CH[k+3] (modulo 4), each
once, and leave everything else as it was, with the next conversion under way. -/
def Obligations.FourConversionsFillEveryChannelOnce : Prop :=
  ∀ (s : State) (a b c d : Sample), Live s → s.pendPsm = false → s.adcBusy = true →
    ∃ t, runEvents (PseudoEvent.adcRound a b c d).expand s = .next t ∧
      t.chRead s.adcIdx = a ∧ t.chRead (s.adcIdx + 1) = b ∧ t.chRead (s.adcIdx + 2) = c ∧
      t.chRead (s.adcIdx + 3) = d ∧
      t = { s with ch := t.ch, adcRes := d, adcMux := s.adcIdx, pendAdc := false }

/-- R99: a result is stored in the channel that ADC_MUX held while it was converted, whatever events come between its
ADC_DONE and the FIRE_ADC that stores it. -/
def Obligations.ResultIsStoredInItsOwnChannel : Prop :=
  ∀ (v : Sample) (es : List Instr) (s t : State), s.booted = true → Consistent s → .fireAdc ∉ es →
    runEvents (.adcDone v :: es ++ [.fireAdc]) s = .next t → t.chRead s.adcMux = v

/-- R101: ADC_SEL never changes while a conversion is in progress, and ADC_START is pulsed exactly by a FIRE_ADC that
runs, after which ADC_SEL already holds the new channel. -/
def Obligations.MultiplexerIsStableDuringConversion : Prop :=
  ∀ (i : Instr) (s : State), s.booted = true →
    (∀ t, Consistent s → s.adcBusy = true → exec i s = .next t → t.outputs.adcSel = s.outputs.adcSel) ∧
    (adcStart i s = true ↔ i = .fireAdc ∧ s.fault = none ∧ s.pendAdc = true ∧ s.pendPsm = false) ∧
    (∀ t, adcStart i s = true → exec i s = .next t → t.outputs.adcSel = t.adcIdx ∧ t.adcBusy = true)

/-- R97, R124: no conversion result can arrive twice: where ADC_DONE is enabled, no earlier result is waiting. -/
def Obligations.ConversionNeverMissesItsDeadline : Prop :=
  ∀ (v : Sample) (s t : State), s.booted = true → Consistent s → exec (.adcDone v) s = .next t → s.pendAdc = false

/-! ## The edge inputs and their handlers -/

/-- R103: RUN_EDGE sets PEND_RUN, and an edge while it is set changes nothing. -/
def Obligations.RunEdgePendsOrIsAbsorbed : Prop :=
  encode .runEdge = 0x4000#16 ∧
  ∀ s : State, s.booted = true →
    (s.fault ≠ none → exec .runEdge s = .refused .notEnabled) ∧
    (s.fault = none → s.pendRun = false → exec .runEdge s = .next { s with pendRun := true }) ∧
    (s.fault = none → s.pendRun = true → exec .runEdge s = .next s)

/-- R104: FIRE_RUN inverts RUN and reloads DEB when DEB = 0, and otherwise clears PEND_RUN only. -/
def Obligations.FireRunInvertsRunOnlyWhenIdle : Prop :=
  encode .fireRun = 0xB000#16 ∧
  ∀ s : State, s.booted = true →
    (¬ (s.fault = none ∧ s.pendRun = true ∧ s.pendPsm = false) → exec .fireRun s = .refused .notEnabled) ∧
    (s.fault = none → s.pendRun = true → s.pendPsm = false →
      (s.deb = 0 → exec .fireRun s = .next { s with pendRun := false, run := !s.run, deb := s.cfg.debWindow }) ∧
      (0 < s.deb → exec .fireRun s = .next { s with pendRun := false }))

/-- R108, from R107: while fewer FIRE_REF operations than DEB have run, every FIRE_RUN is ignored: over any such run RUN
stays and DEB counts down by exactly the number of FIRE_REF operations. -/
def Obligations.IgnoreWindowLastsDebRefreshes : Prop :=
  ∀ (es : List Instr) (s t : State), s.booted = true → runEvents es s = .next t → es.count .fireRef < s.deb →
    t.run = s.run ∧ t.deb = s.deb - es.count .fireRef

/-- R105: BARO_EDGE sets PEND_BARO, and an edge while it is set raises DEADLINE_MISS_BARO. -/
def Obligations.BaroEdgePendsOrMissesDeadline : Prop :=
  encode .baroEdge = 0x5000#16 ∧
  ∀ s : State, s.booted = true →
    (s.fault ≠ none → exec .baroEdge s = .refused .notEnabled) ∧
    (s.fault = none → s.pendBaro = false → exec .baroEdge s = .next { s with pendBaro := true }) ∧
    (s.fault = none → s.pendBaro = true →
      exec .baroEdge s = .fault (.raised .deadlineMissBaro { s with fault := some .deadlineMissBaro }))

/-- R106: FIRE_BARO inverts BARO_FLAG, always, and DEB is neither read nor written. -/
def Obligations.FireBaroAlwaysInvertsBaroFlag : Prop :=
  encode .fireBaro = 0xC000#16 ∧
  ∀ s : State, s.booted = true →
    (¬ (s.fault = none ∧ s.pendBaro = true ∧ s.pendPsm = false) → exec .fireBaro s = .refused .notEnabled) ∧
    (s.fault = none → s.pendBaro = true → s.pendPsm = false →
      exec .fireBaro s = .next { s with pendBaro := false, baroFlag := !s.baroFlag })

/-- R147, from R105: after a BARO_EDGE no run takes another BARO_EDGE without a FIRE_BARO between them. -/
def Obligations.BaroEdgesNeedADispatchBetween : Prop :=
  ∀ (es : List Instr) (s t : State), s.booted = true → .fireBaro ∉ es →
    runEvents (.baroEdge :: es ++ [.baroEdge]) s ≠ .next t

/-! ## Whole-machine rules -/

/-- R47, R46, R52, R22: each element is written only by the events its rule names. After RESET, over every event that
completes: the position elements by FIRE_PSM, the published duties and the divider by FIRE_REF, DEB by FIRE_REF and
FIRE_RUN, RUN by FIRE_RUN, BARO_FLAG by FIRE_BARO, the channel file and the sequencer by FIRE_ADC, ADC_BUSY by FIRE_ADC
and ADC_DONE, ADC_RES by ADC_DONE, the counters and active duties by their tick, and BARO_DUTY, FAULT, the
configuration with its table and the rest of the trace by none. -/
def Obligations.EachElementHasItsWriters : Prop :=
  ∀ (i : Instr) (s t : State), s.booted = true → exec i s = .next t →
    (i ≠ .firePsm → t.posIdx = s.posIdx ∧ t.rotCmp = s.rotCmp ∧ t.hepA = s.hepA ∧ t.hepB = s.hepB) ∧
    (i ≠ .fireRef → t.dutyBufMap = s.dutyBufMap ∧ t.dutyBufTps = s.dutyBufTps ∧ t.vssDiv = s.vssDiv ∧
      t.vssPin = s.vssPin) ∧
    (i ≠ .fireRef → i ≠ .fireRun → t.deb = s.deb) ∧
    (i ≠ .fireRun → t.run = s.run) ∧
    (i ≠ .fireBaro → t.baroFlag = s.baroFlag) ∧
    (i ≠ .fireAdc → t.ch = s.ch ∧ t.adcIdx = s.adcIdx ∧ t.adcMux = s.adcMux) ∧
    (i ≠ .fireAdc → (∀ v, i ≠ .adcDone v) → t.adcBusy = s.adcBusy) ∧
    ((∀ v, i ≠ .adcDone v) → t.adcRes = s.adcRes) ∧
    (i ≠ .rotTick → t.rotCnt = s.rotCnt) ∧
    (i ≠ .pwmTick → t.pwmCnt = s.pwmCnt ∧ t.dutyActMap = s.dutyActMap ∧ t.dutyActTps = s.dutyActTps) ∧
    t.baroDuty = s.baroDuty ∧ t.fault = s.fault ∧ t.cfg = s.cfg ∧ t.trace = s.trace ∧ t.booted = s.booted

/-- R126, R38: a pending bit is set only by its source's event and cleared only by its dispatch event. -/
def Obligations.PendingBitsSetBySourceClearedByDispatch : Prop :=
  ∀ (i : Instr) (s t : State) (src : Source), s.booted = true → exec i s = .next t →
    (s.pending src = false → t.pending src = true →
      match src with
      | .psm => i = .rotTick
      | .ref => i = .pwmTick
      | .adc => ∃ v, i = .adcDone v
      | .run => i = .runEdge
      | .baro => i = .baroEdge) ∧
    (s.pending src = true → t.pending src = false → i = src.fire) ∧
    (i = src.fire → s.pending src = true ∧ t.pending src = false)

/-- R127, with R128: a dispatch event is enabled exactly when no fault is recorded, its bit is pending, and PSM is not
pending or it is FIRE_PSM itself; otherwise it is refused NotEnabled. -/
def Obligations.DispatchEnabledExactlyByPendingAndPriority : Prop :=
  ∀ (src : Source) (s : State), s.booted = true → ValidConfig s.cfg → s.posIdx.toNat < 20 →
    ((∃ t, exec src.fire s = .next t) ↔
      s.fault = none ∧ s.pending src = true ∧ (s.pendPsm = true → src = .psm)) ∧
    ((∀ t, exec src.fire s ≠ .next t) → exec src.fire s = .refused .notEnabled)

/-- R123: the faults, exactly: which event raises which reason, when, and what is recorded. There are no others. -/
def Obligations.FaultsAreExactlyTheThreeDeadlineMisses : Prop :=
  ∀ (i : Instr) (s t : State) (r : FaultReason),
    exec i s = .fault (.raised r t) ↔
      s.booted = true ∧ s.fault = none ∧
      ((i = .rotTick ∧ r = .deadlineMissPsm ∧ s.run = true ∧ (s.rotCnt + 1) % 2 ^ s.cfg.cmpW = s.rotCmp ∧
          s.pendPsm = true ∧ t = { s with rotCnt := 0, fault := some .deadlineMissPsm }) ∨
       (i = .pwmTick ∧ r = .deadlineMissRef ∧ s.pwmCnt.toNat = 255 ∧ s.pendRef = true ∧
          t = { s with pwmCnt := 0, dutyActMap := s.dutyBufMap, dutyActTps := s.dutyBufTps,
                       fault := some .deadlineMissRef }) ∨
       (i = .baroEdge ∧ r = .deadlineMissBaro ∧ s.pendBaro = true ∧
          t = { s with fault := some .deadlineMissBaro }))

/-- R121: in the fault state no event is enabled; every event but RESET is refused NotEnabled, and RESET is refused
ResetNotFirst by the order of R122 (log 8). So FAULT is never cleared. -/
def Obligations.FaultStateEnablesNoEvent : Prop :=
  ∀ (i : Instr) (s : State), s.booted = true → s.fault ≠ none →
    exec i s = .refused (match i with | .reset _ => .resetNotFirst | _ => .notEnabled)

/-- R128: environment events are never blocked by pending operations: after RESET and without a fault, each of the four
that have no condition of their own is never refused. -/
def Obligations.EnvironmentEventsAreNeverBlocked : Prop :=
  ∀ (i : Instr) (s : State), Live s → (i = .rotTick ∨ i = .pwmTick ∨ i = .runEdge ∨ i = .baroEdge) →
    ∀ r, exec i s ≠ .refused r

/-- R43 as an invariant of the step: from every state that has a valid configuration and, after RESET, R43's relations,
every step leads to another such state, and keeps the configuration. -/
def Obligations.EveryStepKeepsTheInvariant : Prop :=
  ∀ s t : State, MachineInv s → step s = .next t → MachineInv t ∧ t.cfg = s.cfg

/-- R43 over runs: every state reached from a RESET under a valid configuration by enabled events has the relations of
R43, and no fault recorded. -/
def Obligations.ReachedStatesAreConsistent : Prop :=
  ∀ s : State, Reached s → Consistent s ∧ s.fault = none ∧ ValidConfig s.cfg

/-- The state after reset meets the invariant (its OPEN values are the model's choice, log 2). -/
def Obligations.StateResetMeetsTheInvariant : Prop := MachineInv State.reset ∧ Live State.reset

/-- R135, R126, R128: in an infinite run with weakly fair dispatch, a pending PSM firing is eventually dispatched. -/
def Obligations.FairRunDispatchesPendingPsm : Prop :=
  ∀ (states : Nat → State) (events : Nat → Instr) (n : Nat),
    InfiniteRun states events → WeaklyFair states events → Live (states n) → MachineInv (states n) →
    (states n).pendPsm = true → ∃ m, n ≤ m ∧ events m = .firePsm

/-- R100, last sentence: with a converter that completes every started conversion and fair dispatch, every channel is
refreshed infinitely often. The fairness is FairDispatch, the model's reading of R135 for this sentence (log 18). -/
def Obligations.FairDispatchRefreshesEveryChannelForever : Prop :=
  ∀ (states : Nat → State) (events : Nat → Instr), InfiniteRun states events → FairDispatch states events →
    ConverterCompletes states events → Live (states 0) → MachineInv (states 0) → ChannelsRefreshedForever states events

/-- R100 under R135's plain words: weak fairness gives it in a run in which, from some point on, no PSM firing is
pending, as while the rotation is stopped. -/
def Obligations.QuietPsmRefreshesEveryChannelForever : Prop :=
  ∀ (states : Nat → State) (events : Nat → Instr) (q : Nat), InfiniteRun states events → WeaklyFair states events →
    ConverterCompletes states events → Live (states 0) → MachineInv (states 0) →
    (∀ m, q ≤ m → (states m).pendPsm = false) → ChannelsRefreshedForever states events

/-- R127, R128, R135: weak fairness alone does not give R100's last sentence (log 18). Some weakly fair infinite run with
PEND_ADC = 1 throughout and a converter that completes every started conversion dispatches no FIRE_ADC, because PSM
firings keep interrupting its enabling. -/
def Obligations.WeakFairnessAloneLetsPsmStarveTheSampler : Prop :=
  ∃ (states : Nat → State) (events : Nat → Instr), InfiniteRun states events ∧ WeaklyFair states events ∧
    ConverterCompletes states events ∧ Live (states 0) ∧ MachineInv (states 0) ∧
    ∀ n, (states n).pendAdc = true ∧ events n ≠ .fireAdc

/-- R140, R141: when a run that meets the deadline ends with a FIRE_PSM and RUN = 1, the compare value it wrote is still
ahead of the counter, so the next match comes after exactly the ticks left of that interval, without a wrap. -/
def Obligations.MetDeadlineNeverStretchesAnInterval : Prop :=
  ∀ (es : List Instr) (s u : State), MachineInv s → s.booted = true → MeetsDeadline (es ++ [.firePsm]) s →
    runEvents (es ++ [.firePsm]) s = .next u → u.run = true →
    u.rotCnt < u.rotCmp ∧
    runEvents (List.replicate (u.rotCmp - u.rotCnt) .rotTick) u = .next { u with rotCnt := 0, pendPsm := true }
end

