-- ==== Sys2Proof/Laws/State.lean ====
section
/-! SUPPORT. What each named update does to each field of State, one lemma a field, so that no later proof unfolds a
record update. -/

namespace Sys2Proof.Machine

/-! setPending -/

@[simp] theorem setPending_cfg (s : State) (src : Source) (b : Bool) : (s.setPending src b).cfg = s.cfg :=
  by cases src <;> rfl
@[simp] theorem setPending_trace (s : State) (src : Source) (b : Bool) : (s.setPending src b).trace = s.trace :=
  by cases src <;> rfl
@[simp] theorem setPending_booted (s : State) (src : Source) (b : Bool) : (s.setPending src b).booted = s.booted :=
  by cases src <;> rfl
@[simp] theorem setPending_posIdx (s : State) (src : Source) (b : Bool) : (s.setPending src b).posIdx = s.posIdx :=
  by cases src <;> rfl
@[simp] theorem setPending_run (s : State) (src : Source) (b : Bool) : (s.setPending src b).run = s.run :=
  by cases src <;> rfl
@[simp] theorem setPending_baroFlag (s : State) (src : Source) (b : Bool) : (s.setPending src b).baroFlag = s.baroFlag :=
  by cases src <;> rfl
@[simp] theorem setPending_hepA (s : State) (src : Source) (b : Bool) : (s.setPending src b).hepA = s.hepA :=
  by cases src <;> rfl
@[simp] theorem setPending_hepB (s : State) (src : Source) (b : Bool) : (s.setPending src b).hepB = s.hepB :=
  by cases src <;> rfl
@[simp] theorem setPending_rotCmp (s : State) (src : Source) (b : Bool) : (s.setPending src b).rotCmp = s.rotCmp :=
  by cases src <;> rfl
@[simp] theorem setPending_ch (s : State) (src : Source) (b : Bool) : (s.setPending src b).ch = s.ch :=
  by cases src <;> rfl
@[simp] theorem setPending_rotCnt (s : State) (src : Source) (b : Bool) : (s.setPending src b).rotCnt = s.rotCnt :=
  by cases src <;> rfl
@[simp] theorem setPending_adcIdx (s : State) (src : Source) (b : Bool) : (s.setPending src b).adcIdx = s.adcIdx :=
  by cases src <;> rfl
@[simp] theorem setPending_adcMux (s : State) (src : Source) (b : Bool) : (s.setPending src b).adcMux = s.adcMux :=
  by cases src <;> rfl
@[simp] theorem setPending_adcBusy (s : State) (src : Source) (b : Bool) : (s.setPending src b).adcBusy = s.adcBusy :=
  by cases src <;> rfl
@[simp] theorem setPending_adcRes (s : State) (src : Source) (b : Bool) : (s.setPending src b).adcRes = s.adcRes :=
  by cases src <;> rfl
@[simp] theorem setPending_dutyBufMap (s : State) (src : Source) (b : Bool) : (s.setPending src b).dutyBufMap = s.dutyBufMap :=
  by cases src <;> rfl
@[simp] theorem setPending_dutyBufTps (s : State) (src : Source) (b : Bool) : (s.setPending src b).dutyBufTps = s.dutyBufTps :=
  by cases src <;> rfl
@[simp] theorem setPending_dutyActMap (s : State) (src : Source) (b : Bool) : (s.setPending src b).dutyActMap = s.dutyActMap :=
  by cases src <;> rfl
@[simp] theorem setPending_dutyActTps (s : State) (src : Source) (b : Bool) : (s.setPending src b).dutyActTps = s.dutyActTps :=
  by cases src <;> rfl
@[simp] theorem setPending_pwmCnt (s : State) (src : Source) (b : Bool) : (s.setPending src b).pwmCnt = s.pwmCnt :=
  by cases src <;> rfl
@[simp] theorem setPending_baroDuty (s : State) (src : Source) (b : Bool) : (s.setPending src b).baroDuty = s.baroDuty :=
  by cases src <;> rfl
@[simp] theorem setPending_pendPsm (s : State) (src : Source) (b : Bool) : (s.setPending src b).pendPsm = if src = .psm then b else s.pendPsm :=
  by cases src <;> rfl
@[simp] theorem setPending_pendRef (s : State) (src : Source) (b : Bool) : (s.setPending src b).pendRef = if src = .ref then b else s.pendRef :=
  by cases src <;> rfl
@[simp] theorem setPending_pendAdc (s : State) (src : Source) (b : Bool) : (s.setPending src b).pendAdc = if src = .adc then b else s.pendAdc :=
  by cases src <;> rfl
@[simp] theorem setPending_pendRun (s : State) (src : Source) (b : Bool) : (s.setPending src b).pendRun = if src = .run then b else s.pendRun :=
  by cases src <;> rfl
@[simp] theorem setPending_pendBaro (s : State) (src : Source) (b : Bool) : (s.setPending src b).pendBaro = if src = .baro then b else s.pendBaro :=
  by cases src <;> rfl
@[simp] theorem setPending_deb (s : State) (src : Source) (b : Bool) : (s.setPending src b).deb = s.deb :=
  by cases src <;> rfl
@[simp] theorem setPending_vssDiv (s : State) (src : Source) (b : Bool) : (s.setPending src b).vssDiv = s.vssDiv :=
  by cases src <;> rfl
@[simp] theorem setPending_vssPin (s : State) (src : Source) (b : Bool) : (s.setPending src b).vssPin = s.vssPin :=
  by cases src <;> rfl
@[simp] theorem setPending_fault (s : State) (src : Source) (b : Bool) : (s.setPending src b).fault = s.fault :=
  by cases src <;> rfl

/-! chWrite -/

@[simp] theorem chWrite_cfg (s : State) (k : ChanNo) (v : Sample) : (s.chWrite k v).cfg = s.cfg := rfl
@[simp] theorem chWrite_trace (s : State) (k : ChanNo) (v : Sample) : (s.chWrite k v).trace = s.trace := rfl
@[simp] theorem chWrite_booted (s : State) (k : ChanNo) (v : Sample) : (s.chWrite k v).booted = s.booted := rfl
@[simp] theorem chWrite_posIdx (s : State) (k : ChanNo) (v : Sample) : (s.chWrite k v).posIdx = s.posIdx := rfl
@[simp] theorem chWrite_run (s : State) (k : ChanNo) (v : Sample) : (s.chWrite k v).run = s.run := rfl
@[simp] theorem chWrite_baroFlag (s : State) (k : ChanNo) (v : Sample) : (s.chWrite k v).baroFlag = s.baroFlag := rfl
@[simp] theorem chWrite_hepA (s : State) (k : ChanNo) (v : Sample) : (s.chWrite k v).hepA = s.hepA := rfl
@[simp] theorem chWrite_hepB (s : State) (k : ChanNo) (v : Sample) : (s.chWrite k v).hepB = s.hepB := rfl
@[simp] theorem chWrite_rotCmp (s : State) (k : ChanNo) (v : Sample) : (s.chWrite k v).rotCmp = s.rotCmp := rfl
@[simp] theorem chWrite_ch (s : State) (k : ChanNo) (v : Sample) : (s.chWrite k v).ch = s.ch.set k.toNat v k.isLt :=
  rfl
@[simp] theorem chWrite_rotCnt (s : State) (k : ChanNo) (v : Sample) : (s.chWrite k v).rotCnt = s.rotCnt := rfl
@[simp] theorem chWrite_adcIdx (s : State) (k : ChanNo) (v : Sample) : (s.chWrite k v).adcIdx = s.adcIdx := rfl
@[simp] theorem chWrite_adcMux (s : State) (k : ChanNo) (v : Sample) : (s.chWrite k v).adcMux = s.adcMux := rfl
@[simp] theorem chWrite_adcBusy (s : State) (k : ChanNo) (v : Sample) : (s.chWrite k v).adcBusy = s.adcBusy := rfl
@[simp] theorem chWrite_adcRes (s : State) (k : ChanNo) (v : Sample) : (s.chWrite k v).adcRes = s.adcRes := rfl
@[simp] theorem chWrite_dutyBufMap (s : State) (k : ChanNo) (v : Sample) : (s.chWrite k v).dutyBufMap = s.dutyBufMap :=
  rfl
@[simp] theorem chWrite_dutyBufTps (s : State) (k : ChanNo) (v : Sample) : (s.chWrite k v).dutyBufTps = s.dutyBufTps :=
  rfl
@[simp] theorem chWrite_dutyActMap (s : State) (k : ChanNo) (v : Sample) : (s.chWrite k v).dutyActMap = s.dutyActMap :=
  rfl
@[simp] theorem chWrite_dutyActTps (s : State) (k : ChanNo) (v : Sample) : (s.chWrite k v).dutyActTps = s.dutyActTps :=
  rfl
@[simp] theorem chWrite_pwmCnt (s : State) (k : ChanNo) (v : Sample) : (s.chWrite k v).pwmCnt = s.pwmCnt := rfl
@[simp] theorem chWrite_baroDuty (s : State) (k : ChanNo) (v : Sample) : (s.chWrite k v).baroDuty = s.baroDuty := rfl
@[simp] theorem chWrite_pendPsm (s : State) (k : ChanNo) (v : Sample) : (s.chWrite k v).pendPsm = s.pendPsm := rfl
@[simp] theorem chWrite_pendRef (s : State) (k : ChanNo) (v : Sample) : (s.chWrite k v).pendRef = s.pendRef := rfl
@[simp] theorem chWrite_pendAdc (s : State) (k : ChanNo) (v : Sample) : (s.chWrite k v).pendAdc = s.pendAdc := rfl
@[simp] theorem chWrite_pendRun (s : State) (k : ChanNo) (v : Sample) : (s.chWrite k v).pendRun = s.pendRun := rfl
@[simp] theorem chWrite_pendBaro (s : State) (k : ChanNo) (v : Sample) : (s.chWrite k v).pendBaro = s.pendBaro := rfl
@[simp] theorem chWrite_deb (s : State) (k : ChanNo) (v : Sample) : (s.chWrite k v).deb = s.deb := rfl
@[simp] theorem chWrite_vssDiv (s : State) (k : ChanNo) (v : Sample) : (s.chWrite k v).vssDiv = s.vssDiv := rfl
@[simp] theorem chWrite_vssPin (s : State) (k : ChanNo) (v : Sample) : (s.chWrite k v).vssPin = s.vssPin := rfl
@[simp] theorem chWrite_fault (s : State) (k : ChanNo) (v : Sample) : (s.chWrite k v).fault = s.fault := rfl

/-! hepToggle -/

@[simp] theorem hepToggle_cfg (s : State) (m : BitVec 2) : (hepToggle m s).cfg = s.cfg :=
  by unfold hepToggle; split <;> (try split) <;> rfl
@[simp] theorem hepToggle_trace (s : State) (m : BitVec 2) : (hepToggle m s).trace = s.trace :=
  by unfold hepToggle; split <;> (try split) <;> rfl
@[simp] theorem hepToggle_booted (s : State) (m : BitVec 2) : (hepToggle m s).booted = s.booted :=
  by unfold hepToggle; split <;> (try split) <;> rfl
@[simp] theorem hepToggle_posIdx (s : State) (m : BitVec 2) : (hepToggle m s).posIdx = s.posIdx :=
  by unfold hepToggle; split <;> (try split) <;> rfl
@[simp] theorem hepToggle_run (s : State) (m : BitVec 2) : (hepToggle m s).run = s.run :=
  by unfold hepToggle; split <;> (try split) <;> rfl
@[simp] theorem hepToggle_baroFlag (s : State) (m : BitVec 2) : (hepToggle m s).baroFlag = s.baroFlag :=
  by unfold hepToggle; split <;> (try split) <;> rfl
@[simp] theorem hepToggle_hepA (s : State) (m : BitVec 2) : (hepToggle m s).hepA = if m = 0b01#2 then !s.hepA else s.hepA :=
  by unfold hepToggle; split <;> (try split) <;> simp_all
@[simp] theorem hepToggle_hepB (s : State) (m : BitVec 2) : (hepToggle m s).hepB = if m = 0b10#2 then !s.hepB else s.hepB :=
  by unfold hepToggle; split <;> (try split) <;> simp_all
@[simp] theorem hepToggle_rotCmp (s : State) (m : BitVec 2) : (hepToggle m s).rotCmp = s.rotCmp :=
  by unfold hepToggle; split <;> (try split) <;> rfl
@[simp] theorem hepToggle_ch (s : State) (m : BitVec 2) : (hepToggle m s).ch = s.ch :=
  by unfold hepToggle; split <;> (try split) <;> rfl
@[simp] theorem hepToggle_rotCnt (s : State) (m : BitVec 2) : (hepToggle m s).rotCnt = s.rotCnt :=
  by unfold hepToggle; split <;> (try split) <;> rfl
@[simp] theorem hepToggle_adcIdx (s : State) (m : BitVec 2) : (hepToggle m s).adcIdx = s.adcIdx :=
  by unfold hepToggle; split <;> (try split) <;> rfl
@[simp] theorem hepToggle_adcMux (s : State) (m : BitVec 2) : (hepToggle m s).adcMux = s.adcMux :=
  by unfold hepToggle; split <;> (try split) <;> rfl
@[simp] theorem hepToggle_adcBusy (s : State) (m : BitVec 2) : (hepToggle m s).adcBusy = s.adcBusy :=
  by unfold hepToggle; split <;> (try split) <;> rfl
@[simp] theorem hepToggle_adcRes (s : State) (m : BitVec 2) : (hepToggle m s).adcRes = s.adcRes :=
  by unfold hepToggle; split <;> (try split) <;> rfl
@[simp] theorem hepToggle_dutyBufMap (s : State) (m : BitVec 2) : (hepToggle m s).dutyBufMap = s.dutyBufMap :=
  by unfold hepToggle; split <;> (try split) <;> rfl
@[simp] theorem hepToggle_dutyBufTps (s : State) (m : BitVec 2) : (hepToggle m s).dutyBufTps = s.dutyBufTps :=
  by unfold hepToggle; split <;> (try split) <;> rfl
@[simp] theorem hepToggle_dutyActMap (s : State) (m : BitVec 2) : (hepToggle m s).dutyActMap = s.dutyActMap :=
  by unfold hepToggle; split <;> (try split) <;> rfl
@[simp] theorem hepToggle_dutyActTps (s : State) (m : BitVec 2) : (hepToggle m s).dutyActTps = s.dutyActTps :=
  by unfold hepToggle; split <;> (try split) <;> rfl
@[simp] theorem hepToggle_pwmCnt (s : State) (m : BitVec 2) : (hepToggle m s).pwmCnt = s.pwmCnt :=
  by unfold hepToggle; split <;> (try split) <;> rfl
@[simp] theorem hepToggle_baroDuty (s : State) (m : BitVec 2) : (hepToggle m s).baroDuty = s.baroDuty :=
  by unfold hepToggle; split <;> (try split) <;> rfl
@[simp] theorem hepToggle_pendPsm (s : State) (m : BitVec 2) : (hepToggle m s).pendPsm = s.pendPsm :=
  by unfold hepToggle; split <;> (try split) <;> rfl
@[simp] theorem hepToggle_pendRef (s : State) (m : BitVec 2) : (hepToggle m s).pendRef = s.pendRef :=
  by unfold hepToggle; split <;> (try split) <;> rfl
@[simp] theorem hepToggle_pendAdc (s : State) (m : BitVec 2) : (hepToggle m s).pendAdc = s.pendAdc :=
  by unfold hepToggle; split <;> (try split) <;> rfl
@[simp] theorem hepToggle_pendRun (s : State) (m : BitVec 2) : (hepToggle m s).pendRun = s.pendRun :=
  by unfold hepToggle; split <;> (try split) <;> rfl
@[simp] theorem hepToggle_pendBaro (s : State) (m : BitVec 2) : (hepToggle m s).pendBaro = s.pendBaro :=
  by unfold hepToggle; split <;> (try split) <;> rfl
@[simp] theorem hepToggle_deb (s : State) (m : BitVec 2) : (hepToggle m s).deb = s.deb :=
  by unfold hepToggle; split <;> (try split) <;> rfl
@[simp] theorem hepToggle_vssDiv (s : State) (m : BitVec 2) : (hepToggle m s).vssDiv = s.vssDiv :=
  by unfold hepToggle; split <;> (try split) <;> rfl
@[simp] theorem hepToggle_vssPin (s : State) (m : BitVec 2) : (hepToggle m s).vssPin = s.vssPin :=
  by unfold hepToggle; split <;> (try split) <;> rfl
@[simp] theorem hepToggle_fault (s : State) (m : BitVec 2) : (hepToggle m s).fault = s.fault :=
  by unfold hepToggle; split <;> (try split) <;> rfl

/-! invertRun -/

@[simp] theorem invertRun_cfg (s : State) : (invertRun s).cfg = s.cfg := rfl
@[simp] theorem invertRun_trace (s : State) : (invertRun s).trace = s.trace := rfl
@[simp] theorem invertRun_booted (s : State) : (invertRun s).booted = s.booted := rfl
@[simp] theorem invertRun_posIdx (s : State) : (invertRun s).posIdx = s.posIdx := rfl
@[simp] theorem invertRun_run (s : State) : (invertRun s).run = !s.run := rfl
@[simp] theorem invertRun_baroFlag (s : State) : (invertRun s).baroFlag = s.baroFlag := rfl
@[simp] theorem invertRun_hepA (s : State) : (invertRun s).hepA = s.hepA := rfl
@[simp] theorem invertRun_hepB (s : State) : (invertRun s).hepB = s.hepB := rfl
@[simp] theorem invertRun_rotCmp (s : State) : (invertRun s).rotCmp = s.rotCmp := rfl
@[simp] theorem invertRun_ch (s : State) : (invertRun s).ch = s.ch := rfl
@[simp] theorem invertRun_rotCnt (s : State) : (invertRun s).rotCnt = s.rotCnt := rfl
@[simp] theorem invertRun_adcIdx (s : State) : (invertRun s).adcIdx = s.adcIdx := rfl
@[simp] theorem invertRun_adcMux (s : State) : (invertRun s).adcMux = s.adcMux := rfl
@[simp] theorem invertRun_adcBusy (s : State) : (invertRun s).adcBusy = s.adcBusy := rfl
@[simp] theorem invertRun_adcRes (s : State) : (invertRun s).adcRes = s.adcRes := rfl
@[simp] theorem invertRun_dutyBufMap (s : State) : (invertRun s).dutyBufMap = s.dutyBufMap := rfl
@[simp] theorem invertRun_dutyBufTps (s : State) : (invertRun s).dutyBufTps = s.dutyBufTps := rfl
@[simp] theorem invertRun_dutyActMap (s : State) : (invertRun s).dutyActMap = s.dutyActMap := rfl
@[simp] theorem invertRun_dutyActTps (s : State) : (invertRun s).dutyActTps = s.dutyActTps := rfl
@[simp] theorem invertRun_pwmCnt (s : State) : (invertRun s).pwmCnt = s.pwmCnt := rfl
@[simp] theorem invertRun_baroDuty (s : State) : (invertRun s).baroDuty = s.baroDuty := rfl
@[simp] theorem invertRun_pendPsm (s : State) : (invertRun s).pendPsm = s.pendPsm := rfl
@[simp] theorem invertRun_pendRef (s : State) : (invertRun s).pendRef = s.pendRef := rfl
@[simp] theorem invertRun_pendAdc (s : State) : (invertRun s).pendAdc = s.pendAdc := rfl
@[simp] theorem invertRun_pendRun (s : State) : (invertRun s).pendRun = s.pendRun := rfl
@[simp] theorem invertRun_pendBaro (s : State) : (invertRun s).pendBaro = s.pendBaro := rfl
@[simp] theorem invertRun_deb (s : State) : (invertRun s).deb = s.deb := rfl
@[simp] theorem invertRun_vssDiv (s : State) : (invertRun s).vssDiv = s.vssDiv := rfl
@[simp] theorem invertRun_vssPin (s : State) : (invertRun s).vssPin = s.vssPin := rfl
@[simp] theorem invertRun_fault (s : State) : (invertRun s).fault = s.fault := rfl

/-! invertBaroFlag -/

@[simp] theorem invertBaroFlag_cfg (s : State) : (invertBaroFlag s).cfg = s.cfg := rfl
@[simp] theorem invertBaroFlag_trace (s : State) : (invertBaroFlag s).trace = s.trace := rfl
@[simp] theorem invertBaroFlag_booted (s : State) : (invertBaroFlag s).booted = s.booted := rfl
@[simp] theorem invertBaroFlag_posIdx (s : State) : (invertBaroFlag s).posIdx = s.posIdx := rfl
@[simp] theorem invertBaroFlag_run (s : State) : (invertBaroFlag s).run = s.run := rfl
@[simp] theorem invertBaroFlag_baroFlag (s : State) : (invertBaroFlag s).baroFlag = !s.baroFlag := rfl
@[simp] theorem invertBaroFlag_hepA (s : State) : (invertBaroFlag s).hepA = s.hepA := rfl
@[simp] theorem invertBaroFlag_hepB (s : State) : (invertBaroFlag s).hepB = s.hepB := rfl
@[simp] theorem invertBaroFlag_rotCmp (s : State) : (invertBaroFlag s).rotCmp = s.rotCmp := rfl
@[simp] theorem invertBaroFlag_ch (s : State) : (invertBaroFlag s).ch = s.ch := rfl
@[simp] theorem invertBaroFlag_rotCnt (s : State) : (invertBaroFlag s).rotCnt = s.rotCnt := rfl
@[simp] theorem invertBaroFlag_adcIdx (s : State) : (invertBaroFlag s).adcIdx = s.adcIdx := rfl
@[simp] theorem invertBaroFlag_adcMux (s : State) : (invertBaroFlag s).adcMux = s.adcMux := rfl
@[simp] theorem invertBaroFlag_adcBusy (s : State) : (invertBaroFlag s).adcBusy = s.adcBusy := rfl
@[simp] theorem invertBaroFlag_adcRes (s : State) : (invertBaroFlag s).adcRes = s.adcRes := rfl
@[simp] theorem invertBaroFlag_dutyBufMap (s : State) : (invertBaroFlag s).dutyBufMap = s.dutyBufMap := rfl
@[simp] theorem invertBaroFlag_dutyBufTps (s : State) : (invertBaroFlag s).dutyBufTps = s.dutyBufTps := rfl
@[simp] theorem invertBaroFlag_dutyActMap (s : State) : (invertBaroFlag s).dutyActMap = s.dutyActMap := rfl
@[simp] theorem invertBaroFlag_dutyActTps (s : State) : (invertBaroFlag s).dutyActTps = s.dutyActTps := rfl
@[simp] theorem invertBaroFlag_pwmCnt (s : State) : (invertBaroFlag s).pwmCnt = s.pwmCnt := rfl
@[simp] theorem invertBaroFlag_baroDuty (s : State) : (invertBaroFlag s).baroDuty = s.baroDuty := rfl
@[simp] theorem invertBaroFlag_pendPsm (s : State) : (invertBaroFlag s).pendPsm = s.pendPsm := rfl
@[simp] theorem invertBaroFlag_pendRef (s : State) : (invertBaroFlag s).pendRef = s.pendRef := rfl
@[simp] theorem invertBaroFlag_pendAdc (s : State) : (invertBaroFlag s).pendAdc = s.pendAdc := rfl
@[simp] theorem invertBaroFlag_pendRun (s : State) : (invertBaroFlag s).pendRun = s.pendRun := rfl
@[simp] theorem invertBaroFlag_pendBaro (s : State) : (invertBaroFlag s).pendBaro = s.pendBaro := rfl
@[simp] theorem invertBaroFlag_deb (s : State) : (invertBaroFlag s).deb = s.deb := rfl
@[simp] theorem invertBaroFlag_vssDiv (s : State) : (invertBaroFlag s).vssDiv = s.vssDiv := rfl
@[simp] theorem invertBaroFlag_vssPin (s : State) : (invertBaroFlag s).vssPin = s.vssPin := rfl
@[simp] theorem invertBaroFlag_fault (s : State) : (invertBaroFlag s).fault = s.fault := rfl

/-! nextConversion -/

@[simp] theorem nextConversion_cfg (s : State) : (nextConversion s).cfg = s.cfg := rfl
@[simp] theorem nextConversion_trace (s : State) : (nextConversion s).trace = s.trace := rfl
@[simp] theorem nextConversion_booted (s : State) : (nextConversion s).booted = s.booted := rfl
@[simp] theorem nextConversion_posIdx (s : State) : (nextConversion s).posIdx = s.posIdx := rfl
@[simp] theorem nextConversion_run (s : State) : (nextConversion s).run = s.run := rfl
@[simp] theorem nextConversion_baroFlag (s : State) : (nextConversion s).baroFlag = s.baroFlag := rfl
@[simp] theorem nextConversion_hepA (s : State) : (nextConversion s).hepA = s.hepA := rfl
@[simp] theorem nextConversion_hepB (s : State) : (nextConversion s).hepB = s.hepB := rfl
@[simp] theorem nextConversion_rotCmp (s : State) : (nextConversion s).rotCmp = s.rotCmp := rfl
@[simp] theorem nextConversion_ch (s : State) : (nextConversion s).ch = s.ch := rfl
@[simp] theorem nextConversion_rotCnt (s : State) : (nextConversion s).rotCnt = s.rotCnt := rfl
@[simp] theorem nextConversion_adcIdx (s : State) : (nextConversion s).adcIdx = nextChan s.adcIdx := rfl
@[simp] theorem nextConversion_adcMux (s : State) : (nextConversion s).adcMux = nextChan s.adcIdx := rfl
@[simp] theorem nextConversion_adcBusy (s : State) : (nextConversion s).adcBusy = true := rfl
@[simp] theorem nextConversion_adcRes (s : State) : (nextConversion s).adcRes = s.adcRes := rfl
@[simp] theorem nextConversion_dutyBufMap (s : State) : (nextConversion s).dutyBufMap = s.dutyBufMap := rfl
@[simp] theorem nextConversion_dutyBufTps (s : State) : (nextConversion s).dutyBufTps = s.dutyBufTps := rfl
@[simp] theorem nextConversion_dutyActMap (s : State) : (nextConversion s).dutyActMap = s.dutyActMap := rfl
@[simp] theorem nextConversion_dutyActTps (s : State) : (nextConversion s).dutyActTps = s.dutyActTps := rfl
@[simp] theorem nextConversion_pwmCnt (s : State) : (nextConversion s).pwmCnt = s.pwmCnt := rfl
@[simp] theorem nextConversion_baroDuty (s : State) : (nextConversion s).baroDuty = s.baroDuty := rfl
@[simp] theorem nextConversion_pendPsm (s : State) : (nextConversion s).pendPsm = s.pendPsm := rfl
@[simp] theorem nextConversion_pendRef (s : State) : (nextConversion s).pendRef = s.pendRef := rfl
@[simp] theorem nextConversion_pendAdc (s : State) : (nextConversion s).pendAdc = s.pendAdc := rfl
@[simp] theorem nextConversion_pendRun (s : State) : (nextConversion s).pendRun = s.pendRun := rfl
@[simp] theorem nextConversion_pendBaro (s : State) : (nextConversion s).pendBaro = s.pendBaro := rfl
@[simp] theorem nextConversion_deb (s : State) : (nextConversion s).deb = s.deb := rfl
@[simp] theorem nextConversion_vssDiv (s : State) : (nextConversion s).vssDiv = s.vssDiv := rfl
@[simp] theorem nextConversion_vssPin (s : State) : (nextConversion s).vssPin = s.vssPin := rfl
@[simp] theorem nextConversion_fault (s : State) : (nextConversion s).fault = s.fault := rfl

/-! latchDuties -/

@[simp] theorem latchDuties_cfg (s : State) : (latchDuties s).cfg = s.cfg := rfl
@[simp] theorem latchDuties_trace (s : State) : (latchDuties s).trace = s.trace := rfl
@[simp] theorem latchDuties_booted (s : State) : (latchDuties s).booted = s.booted := rfl
@[simp] theorem latchDuties_posIdx (s : State) : (latchDuties s).posIdx = s.posIdx := rfl
@[simp] theorem latchDuties_run (s : State) : (latchDuties s).run = s.run := rfl
@[simp] theorem latchDuties_baroFlag (s : State) : (latchDuties s).baroFlag = s.baroFlag := rfl
@[simp] theorem latchDuties_hepA (s : State) : (latchDuties s).hepA = s.hepA := rfl
@[simp] theorem latchDuties_hepB (s : State) : (latchDuties s).hepB = s.hepB := rfl
@[simp] theorem latchDuties_rotCmp (s : State) : (latchDuties s).rotCmp = s.rotCmp := rfl
@[simp] theorem latchDuties_ch (s : State) : (latchDuties s).ch = s.ch := rfl
@[simp] theorem latchDuties_rotCnt (s : State) : (latchDuties s).rotCnt = s.rotCnt := rfl
@[simp] theorem latchDuties_adcIdx (s : State) : (latchDuties s).adcIdx = s.adcIdx := rfl
@[simp] theorem latchDuties_adcMux (s : State) : (latchDuties s).adcMux = s.adcMux := rfl
@[simp] theorem latchDuties_adcBusy (s : State) : (latchDuties s).adcBusy = s.adcBusy := rfl
@[simp] theorem latchDuties_adcRes (s : State) : (latchDuties s).adcRes = s.adcRes := rfl
@[simp] theorem latchDuties_dutyBufMap (s : State) : (latchDuties s).dutyBufMap = s.dutyBufMap := rfl
@[simp] theorem latchDuties_dutyBufTps (s : State) : (latchDuties s).dutyBufTps = s.dutyBufTps := rfl
@[simp] theorem latchDuties_dutyActMap (s : State) : (latchDuties s).dutyActMap = s.dutyBufMap := rfl
@[simp] theorem latchDuties_dutyActTps (s : State) : (latchDuties s).dutyActTps = s.dutyBufTps := rfl
@[simp] theorem latchDuties_pwmCnt (s : State) : (latchDuties s).pwmCnt = s.pwmCnt := rfl
@[simp] theorem latchDuties_baroDuty (s : State) : (latchDuties s).baroDuty = s.baroDuty := rfl
@[simp] theorem latchDuties_pendPsm (s : State) : (latchDuties s).pendPsm = s.pendPsm := rfl
@[simp] theorem latchDuties_pendRef (s : State) : (latchDuties s).pendRef = s.pendRef := rfl
@[simp] theorem latchDuties_pendAdc (s : State) : (latchDuties s).pendAdc = s.pendAdc := rfl
@[simp] theorem latchDuties_pendRun (s : State) : (latchDuties s).pendRun = s.pendRun := rfl
@[simp] theorem latchDuties_pendBaro (s : State) : (latchDuties s).pendBaro = s.pendBaro := rfl
@[simp] theorem latchDuties_deb (s : State) : (latchDuties s).deb = s.deb := rfl
@[simp] theorem latchDuties_vssDiv (s : State) : (latchDuties s).vssDiv = s.vssDiv := rfl
@[simp] theorem latchDuties_vssPin (s : State) : (latchDuties s).vssPin = s.vssPin := rfl
@[simp] theorem latchDuties_fault (s : State) : (latchDuties s).fault = s.fault := rfl

/-! popEvent -/

@[simp] theorem popEvent_cfg (s : State) : (s.popEvent).cfg = s.cfg := rfl
@[simp] theorem popEvent_trace (s : State) : (s.popEvent).trace = s.trace.tail := rfl
@[simp] theorem popEvent_booted (s : State) : (s.popEvent).booted = s.booted := rfl
@[simp] theorem popEvent_posIdx (s : State) : (s.popEvent).posIdx = s.posIdx := rfl
@[simp] theorem popEvent_run (s : State) : (s.popEvent).run = s.run := rfl
@[simp] theorem popEvent_baroFlag (s : State) : (s.popEvent).baroFlag = s.baroFlag := rfl
@[simp] theorem popEvent_hepA (s : State) : (s.popEvent).hepA = s.hepA := rfl
@[simp] theorem popEvent_hepB (s : State) : (s.popEvent).hepB = s.hepB := rfl
@[simp] theorem popEvent_rotCmp (s : State) : (s.popEvent).rotCmp = s.rotCmp := rfl
@[simp] theorem popEvent_ch (s : State) : (s.popEvent).ch = s.ch := rfl
@[simp] theorem popEvent_rotCnt (s : State) : (s.popEvent).rotCnt = s.rotCnt := rfl
@[simp] theorem popEvent_adcIdx (s : State) : (s.popEvent).adcIdx = s.adcIdx := rfl
@[simp] theorem popEvent_adcMux (s : State) : (s.popEvent).adcMux = s.adcMux := rfl
@[simp] theorem popEvent_adcBusy (s : State) : (s.popEvent).adcBusy = s.adcBusy := rfl
@[simp] theorem popEvent_adcRes (s : State) : (s.popEvent).adcRes = s.adcRes := rfl
@[simp] theorem popEvent_dutyBufMap (s : State) : (s.popEvent).dutyBufMap = s.dutyBufMap := rfl
@[simp] theorem popEvent_dutyBufTps (s : State) : (s.popEvent).dutyBufTps = s.dutyBufTps := rfl
@[simp] theorem popEvent_dutyActMap (s : State) : (s.popEvent).dutyActMap = s.dutyActMap := rfl
@[simp] theorem popEvent_dutyActTps (s : State) : (s.popEvent).dutyActTps = s.dutyActTps := rfl
@[simp] theorem popEvent_pwmCnt (s : State) : (s.popEvent).pwmCnt = s.pwmCnt := rfl
@[simp] theorem popEvent_baroDuty (s : State) : (s.popEvent).baroDuty = s.baroDuty := rfl
@[simp] theorem popEvent_pendPsm (s : State) : (s.popEvent).pendPsm = s.pendPsm := rfl
@[simp] theorem popEvent_pendRef (s : State) : (s.popEvent).pendRef = s.pendRef := rfl
@[simp] theorem popEvent_pendAdc (s : State) : (s.popEvent).pendAdc = s.pendAdc := rfl
@[simp] theorem popEvent_pendRun (s : State) : (s.popEvent).pendRun = s.pendRun := rfl
@[simp] theorem popEvent_pendBaro (s : State) : (s.popEvent).pendBaro = s.pendBaro := rfl
@[simp] theorem popEvent_deb (s : State) : (s.popEvent).deb = s.deb := rfl
@[simp] theorem popEvent_vssDiv (s : State) : (s.popEvent).vssDiv = s.vssDiv := rfl
@[simp] theorem popEvent_vssPin (s : State) : (s.popEvent).vssPin = s.vssPin := rfl
@[simp] theorem popEvent_fault (s : State) : (s.popEvent).fault = s.fault := rfl

end Sys2Proof.Machine
end

