-- ==== Sys2Proof/Laws/Ops.lean ====
section
/-! SUPPORT. What each shared operation can do, said once: the gate of every event but RESET, a dispatch, raising a
source's event, the channel file, the index advances, and a run of several events. -/

namespace Sys2Proof.Machine

/-- The gate lets an operation's next state through exactly after RESET, without a fault and when enabled. -/
theorem whenEnabled_next_iff (en : State → Bool) (op : State → Result) (s t : State) :
    whenEnabled en op s = .next t ↔ s.booted = true ∧ s.fault = none ∧ en s = true ∧ op s = .next t := by
  unfold whenEnabled
  cases s.booted <;> simp
  split <;> simp_all

/-- The same for a fault outcome. -/
theorem whenEnabled_fault_iff (en : State → Bool) (op : State → Result) (s : State) (f : Fault) :
    whenEnabled en op s = .fault f ↔ s.booted = true ∧ s.fault = none ∧ en s = true ∧ op s = .fault f := by
  unfold whenEnabled
  cases s.booted <;> simp
  split <;> simp_all

/-- When enabled, the gate is the operation. -/
theorem whenEnabled_of_enabled (en : State → Bool) (op : State → Result) (s : State) (hb : s.booted = true)
    (hf : s.fault = none) (he : en s = true) : whenEnabled en op s = op s := by
  simp [whenEnabled, hb, hf, he]

/-- After RESET, when not enabled, the gate refuses NotEnabled. -/
theorem whenEnabled_of_not_enabled (en : State → Bool) (op : State → Result) (s : State) (hb : s.booted = true)
    (h : s.fault = none → en s = false) : whenEnabled en op s = .refused .notEnabled := by
  unfold whenEnabled
  rw [if_neg (by simp [hb]), if_neg]
  rintro ⟨hf, he⟩
  simp [h hf] at he

/-- Before RESET, the gate refuses NoReset. -/
theorem whenEnabled_before_reset (en : State → Bool) (op : State → Result) (s : State) (hb : s.booted = false) :
    whenEnabled en op s = .refused .noReset := by
  simp [whenEnabled, hb]

/-- The priority rule: a source may be dispatched when it is pending and PSM is not, or it is PSM itself. -/
theorem mayDispatch_iff (src : Source) (s : State) :
    mayDispatch src s = true ↔ s.pending src = true ∧ (src = .psm ∨ s.pendPsm = false) := by
  simp [mayDispatch]

/-- What a dispatch that completes tells: it was enabled, and the operation ran with the pending bit cleared. -/
theorem dispatch_next_iff (src : Source) (op : State → Result) (s t : State) :
    dispatch src op s = .next t ↔ s.booted = true ∧ s.fault = none ∧ mayDispatch src s = true ∧
      op (s.setPending src false) = .next t :=
  whenEnabled_next_iff _ _ s t

/-- After RESET, a dispatch that is not enabled is refused NotEnabled. -/
theorem dispatch_of_not_enabled (src : Source) (op : State → Result) (s : State) (hb : s.booted = true)
    (h : ¬ (s.fault = none ∧ s.pending src = true ∧ (src = .psm ∨ s.pendPsm = false))) :
    dispatch src op s = .refused .notEnabled := by
  refine whenEnabled_of_not_enabled _ _ _ hb fun hf => ?_
  rw [← Bool.not_eq_true, mayDispatch_iff]
  exact fun hm => h ⟨hf, hm⟩

/-- A source's event completes exactly when its bit was clear, and then sets it. -/
theorem raiseSource_next_iff (src : Source) (r : FaultReason) (s t : State) :
    raiseSource src r s = .next t ↔ s.pending src = false ∧ t = s.setPending src true := by
  unfold raiseSource raise
  cases s.pending src <;> simp [eq_comm]

/-- A source's event faults exactly when its bit was set, and records the reason. -/
theorem raiseSource_fault_iff (src : Source) (r : FaultReason) (s : State) (f : Fault) :
    raiseSource src r s = .fault f ↔ s.pending src = true ∧ f = .raised r { s with fault := some r } := by
  unfold raiseSource raise
  cases s.pending src <;> simp [eq_comm]

/-- The channel file reads back what was written, and no other channel changes (R53). -/
@[simp] theorem chRead_chWrite (s : State) (k j : ChanNo) (v : Sample) :
    (s.chWrite k v).chRead j = if j = k then v else s.chRead j := by
  simp [State.chRead, State.chWrite, Vector.get_eq_getElem, Vector.getElem_set, BitVec.toNat_eq, eq_comm]

/-- The pending bit of a source after writing one. -/
@[simp] theorem pending_setPending (s : State) (src src' : Source) (b : Bool) :
    (s.setPending src b).pending src' = if src' = src then b else s.pending src' := by
  cases src <;> cases src' <;> rfl

/-- The advanced table index, as a number. -/
theorem nextPos_toNat (p : PosNo) : (nextPos p).toNat = (p.toNat + 1) % 20 := by
  have : (p.toNat + 1) % 20 < 32 := by omega
  simp [nextPos, rotLen, Nat.mod_eq_of_lt this]

/-- The advanced channel number wraps with its width. -/
theorem nextChan_eq (k : ChanNo) : nextChan k = k + 1 := by
  revert k; decide

/-- The advanced PWM count wraps with its width. -/
theorem nextPwmCnt_eq (n : BitVec 8) : nextPwmCnt n = n + 1 := by
  apply BitVec.eq_of_toNat_eq
  simp [nextPwmCnt, pwmW]

/-- A run of no events stays. -/
@[simp] theorem runEvents_nil (s : State) : runEvents [] s = .next s := rfl

/-- A run that completes passes through the state after its first event. -/
theorem runEvents_cons_next_iff (i : Instr) (es : List Instr) (s t : State) :
    runEvents (i :: es) s = .next t ↔ ∃ m, exec i s = .next m ∧ runEvents es m = .next t := by
  simp only [runEvents]
  cases exec i s <;> simp

/-- A run of two lists passes through the state between them. -/
theorem runEvents_append_next_iff (es fs : List Instr) (s t : State) :
    runEvents (es ++ fs) s = .next t ↔ ∃ m, runEvents es s = .next m ∧ runEvents fs m = .next t := by
  induction es generalizing s with
  | nil => simp
  | cons i es ih =>
    simp only [List.cons_append, runEvents_cons_next_iff, ih]
    constructor
    · rintro ⟨m, h, n, h', h''⟩; exact ⟨n, ⟨m, h, h'⟩, h''⟩
    · rintro ⟨n, ⟨m, h, h'⟩, h''⟩; exact ⟨m, h, n, h', h''⟩

end Sys2Proof.Machine
end

