-- ==== Sys2Proof/Laws/Exec.lean ====
section
/-! SUPPORT. What each event can do, said once: if it completes, it was enabled and its next state is one of these. A
proof over all events cites these instead of unfolding exec. -/

namespace Sys2Proof.Machine

/-- RESET completes only as the first event of the trace (R136). -/
theorem reset_next {cal : CalSel} {s t : State} (h : exec (.reset cal) s = .next t) :
    s.booted = false ∧ t = powerOnReset cal s := by
  simp only [exec, execReset] at h
  split at h
  · cases h
  · exact ⟨by simp_all, by cases h; rfl⟩

/-- A stopped tick, a counting tick or a match (R109). -/
theorem rotTick_next {s t : State} (h : exec .rotTick s = .next t) :
    s.booted = true ∧ s.fault = none ∧
      ((s.run = false ∧ t = s) ∨
       (s.run = true ∧ nextRotCnt s ≠ s.rotCmp ∧ t = { s with rotCnt := nextRotCnt s }) ∨
       (s.run = true ∧ nextRotCnt s = s.rotCmp ∧ s.pendPsm = false ∧ t = { s with rotCnt := 0, pendPsm := true })) := by
  rw [exec, execRotTick, whenEnabled_next_iff] at h
  obtain ⟨hb, hf, -, h⟩ := h
  refine ⟨hb, hf, ?_⟩
  unfold tickRotation at h
  split at h
  · exact .inl ⟨‹_›, by cases h; rfl⟩
  · split at h
    · obtain ⟨hp, rfl⟩ := (raiseSource_next_iff _ _ _ _).1 h
      exact .inr (.inr ⟨by simp_all, ‹_›, hp, rfl⟩)
    · exact .inr (.inl ⟨by simp_all, ‹_›, by cases h; rfl⟩)

/-- A counting tick or an overflow (R111). -/
theorem pwmTick_next {s t : State} (h : exec .pwmTick s = .next t) :
    s.booted = true ∧ s.fault = none ∧
      ((s.pwmCnt + 1 ≠ 0 ∧ t = { s with pwmCnt := s.pwmCnt + 1 }) ∨
       (s.pwmCnt + 1 = 0 ∧ s.pendRef = false ∧
         t = { s with pwmCnt := 0, dutyActMap := s.dutyBufMap, dutyActTps := s.dutyBufTps, pendRef := true })) := by
  rw [exec, execPwmTick, whenEnabled_next_iff] at h
  obtain ⟨hb, hf, -, h⟩ := h
  refine ⟨hb, hf, ?_⟩
  unfold tickPwm at h
  rw [nextPwmCnt_eq] at h
  split at h
  · rename_i h0
    obtain ⟨hp, rfl⟩ := (raiseSource_next_iff _ _ _ _).1 h
    refine .inr ⟨h0, hp, ?_⟩
    rw [h0]
    rfl
  · exact .inl ⟨‹_›, by cases h; rfl⟩

/-- A conversion in progress completes (R97). -/
theorem adcDone_next {v : Sample} {s t : State} (h : exec (.adcDone v) s = .next t) :
    s.booted = true ∧ s.fault = none ∧ s.adcBusy = true ∧
      t = { s with adcRes := v, adcBusy := false, pendAdc := true } := by
  rw [exec, execAdcDone, whenEnabled_next_iff] at h
  obtain ⟨hb, hf, he, h⟩ := h
  exact ⟨hb, hf, he, by cases h; rfl⟩

/-- A run edge is pending after it, whether it was before or not (R103). -/
theorem runEdge_next {s t : State} (h : exec .runEdge s = .next t) :
    s.booted = true ∧ s.fault = none ∧ t = { s with pendRun := true } := by
  rw [exec, execRunEdge, whenEnabled_next_iff] at h
  obtain ⟨hb, hf, -, h⟩ := h
  exact ⟨hb, hf, by cases h; rfl⟩

/-- A baro edge completes only when none was pending (R105). -/
theorem baroEdge_next {s t : State} (h : exec .baroEdge s = .next t) :
    s.booted = true ∧ s.fault = none ∧ s.pendBaro = false ∧ t = { s with pendBaro := true } := by
  rw [exec, execBaroEdge, whenEnabled_next_iff] at h
  obtain ⟨hb, hf, -, h⟩ := h
  obtain ⟨hp, rfl⟩ := (raiseSource_next_iff _ _ _ _).1 h
  exact ⟨hb, hf, hp, rfl⟩

/-- A firing reads the entries at the index and at the next one (R85). -/
theorem firePsm_next {s t : State} (h : exec .firePsm s = .next t) :
    s.booted = true ∧ s.fault = none ∧ s.pendPsm = true ∧ ∃ e n,
      s.memRead s.posIdx = some e ∧ s.memRead (nextPos s.posIdx) = some n ∧
      t = { s with
        pendPsm := false
        hepA := if entryMask e = 0b01#2 then !s.hepA else s.hepA
        hepB := if entryMask e = 0b10#2 then !s.hepB else s.hepB
        posIdx := nextPos s.posIdx
        rotCmp := nextDelay s.cfg (s.chRead chRpm) (entryDelta n) } := by
  rw [exec, execFirePsm, dispatch_next_iff] at h
  obtain ⟨hb, hf, he, h⟩ := h
  refine ⟨hb, hf, by simpa [mayDispatch, State.pending] using he, ?_⟩
  simp only [firePosition, advancePosition, State.memRead, setPending_cfg, setPending_posIdx] at h
  split at h
  · cases h
  · rename_i e hm
    simp only [hepToggle_cfg, hepToggle_posIdx, setPending_cfg, setPending_posIdx] at h
    split at h
    · cases h
    · rename_i n hn
      refine ⟨e, n, hm, hn, ?_⟩
      cases h
      unfold hepToggle
      by_cases h1 : entryMask e = 0b01#2
      · simp [h1, State.setPending, State.chRead]
      · by_cases h2 : entryMask e = 0b10#2 <;> simp [h1, h2, State.setPending, State.chRead]

/-- A refresh (R90). -/
theorem fireRef_next {s t : State} (h : exec .fireRef s = .next t) :
    s.booted = true ∧ s.fault = none ∧ s.pendRef = true ∧ s.pendPsm = false ∧
      t = { s with
        pendRef := false
        dutyBufTps := tpsDuty s.cfg (s.chRead chTps)
        dutyBufMap := mapDuty s.baroFlag s.baroDuty (s.chRead chMap)
        deb := debNext s.deb
        vssDiv := (vssNext s.cfg s.vssDiv s.vssPin (s.chRead chVss)).1
        vssPin := (vssNext s.cfg s.vssDiv s.vssPin (s.chRead chVss)).2 } := by
  rw [exec, execFireRef, dispatch_next_iff] at h
  obtain ⟨hb, hf, he, h⟩ := h
  obtain ⟨hp, hq⟩ : s.pendRef = true ∧ s.pendPsm = false := by simpa [mayDispatch, State.pending] using he
  exact ⟨hb, hf, hp, hq, by cases h; rfl⟩

/-- A sample stored (R98). -/
theorem fireAdc_next {s t : State} (h : exec .fireAdc s = .next t) :
    s.booted = true ∧ s.fault = none ∧ s.pendAdc = true ∧ s.pendPsm = false ∧
      t = { s with
        pendAdc := false
        ch := s.ch.set s.adcIdx.toNat s.adcRes s.adcIdx.isLt
        adcIdx := nextChan s.adcIdx
        adcMux := nextChan s.adcIdx
        adcBusy := true } := by
  rw [exec, execFireAdc, dispatch_next_iff] at h
  obtain ⟨hb, hf, he, h⟩ := h
  obtain ⟨hp, hq⟩ : s.pendAdc = true ∧ s.pendPsm = false := by simpa [mayDispatch, State.pending] using he
  exact ⟨hb, hf, hp, hq, by cases h; rfl⟩

/-- A genuine or an ignored run edge (R104). -/
theorem fireRun_next {s t : State} (h : exec .fireRun s = .next t) :
    s.booted = true ∧ s.fault = none ∧ s.pendRun = true ∧ s.pendPsm = false ∧
      ((s.deb = 0 ∧ t = { s with pendRun := false, run := !s.run, deb := s.cfg.debWindow }) ∨
       (s.deb ≠ 0 ∧ t = { s with pendRun := false })) := by
  rw [exec, execFireRun, dispatch_next_iff] at h
  obtain ⟨hb, hf, he, h⟩ := h
  obtain ⟨hp, hq⟩ : s.pendRun = true ∧ s.pendPsm = false := by simpa [mayDispatch, State.pending] using he
  refine ⟨hb, hf, hp, hq, ?_⟩
  unfold toggleRun at h
  split at h
  · exact .inl ⟨‹_›, by cases h; rfl⟩
  · exact .inr ⟨‹_›, by cases h; rfl⟩

/-- A baro-mode flip (R106). -/
theorem fireBaro_next {s t : State} (h : exec .fireBaro s = .next t) :
    s.booted = true ∧ s.fault = none ∧ s.pendBaro = true ∧ s.pendPsm = false ∧
      t = { s with pendBaro := false, baroFlag := !s.baroFlag } := by
  rw [exec, execFireBaro, dispatch_next_iff] at h
  obtain ⟨hb, hf, he, h⟩ := h
  obtain ⟨hp, hq⟩ : s.pendBaro = true ∧ s.pendPsm = false := by simpa [mayDispatch, State.pending] using he
  exact ⟨hb, hf, hp, hq, by cases h; rfl⟩

end Sys2Proof.Machine
end

