-- ==== Sys2Proof/Laws/Fairness.lean ====
section
/-! SUPPORT. The two readings of fair dispatch (spec/60_exceptions.md R135, logs 15 and 18): the one R100 needs implies
the other. -/

namespace Sys2Proof.Machine

/-- A dispatch event completes only when its bit is pending (R127). -/
theorem fire_next_pending {src : Source} {s t : State} (h : exec src.fire s = .next t) : s.pending src = true := by
  cases src with
  | psm => exact (firePsm_next h).2.2.1
  | ref => exact (fireRef_next h).2.2.1
  | adc => exact (fireAdc_next h).2.2.1
  | run => exact (fireRun_next h).2.2.1
  | baro => exact (fireBaro_next h).2.2.1

/-- An operation that stays enabled stays pending, so dispatch that is fair to pending operations is weakly fair. -/
theorem fairDispatch_weaklyFair {states : Nat → State} {events : Nat → Instr} (h : FairDispatch states events) :
    WeaklyFair states events := by
  intro src n hn
  exact h src n fun m hm => (hn m hm).elim fun _ ht => fire_next_pending ht

end Sys2Proof.Machine
end

