-- ==== Sys2Proof/Laws/PerInstr.lean ====
section
/-! SUPPORT. The family WordFields: where an event's word carries its code, its zero reserved field and its operand
(spec/30_encoding.md R66 to R68), one lemma per constructor of Instr. -/

namespace Sys2Proof.Laws.WordFields

/-- The three fields of an event's word are the event's code, zero and the event's operand. -/
def Statement (i : Instr) : Prop :=
  evCode (encode i) = codeOf i ∧ evRsv (encode i) = 0 ∧ evOpnd (encode i) = operandOf i

theorem reset (cal : CalSel) : Statement (.reset cal) := by cases cal <;> (unfold Statement; decide)
theorem rotTick : Statement .rotTick := by unfold Statement; decide
theorem pwmTick : Statement .pwmTick := by unfold Statement; decide
theorem adcDone (v : Sample) : Statement (.adcDone v) := by
  have code : ∀ v : Sample, evCode (encode (.adcDone v)) = 0x3 := by decide
  have rsv : ∀ v : Sample, evRsv (encode (.adcDone v)) = 0 := by decide
  have opnd : ∀ v : Sample, evOpnd (encode (.adcDone v)) = v := by decide
  exact ⟨code v, rsv v, opnd v⟩
theorem runEdge : Statement .runEdge := by unfold Statement; decide
theorem baroEdge : Statement .baroEdge := by unfold Statement; decide
theorem firePsm : Statement .firePsm := by unfold Statement; decide
theorem fireRef : Statement .fireRef := by unfold Statement; decide
theorem fireAdc : Statement .fireAdc := by unfold Statement; decide
theorem fireRun : Statement .fireRun := by unfold Statement; decide
theorem fireBaro : Statement .fireBaro := by unfold Statement; decide

end Sys2Proof.Laws.WordFields
end

