-- ==== Sys2Proof/Tests/Slice0.lean ====
section
/-! SUPPORT. The model's own tests. Expected results are the spec's: the words of spec/30_encoding.md R76, the derived
vectors V-… of spec/95_test_vectors.md under TC1, and the configuration checks of spec/00_scope.md R8. After them, for
each statement with hypotheses, a state that meets them, clause by clause. -/

namespace Sys2Proof.Machine.Tests

/-- S0, the state after RESET LOW under TC1. -/
abbrev s0 : State := State.reset

/-- The state after an event that completes; S0 where it does not, so a test must also say that it does. -/
def after (i : Instr) (s : State) : State :=
  match exec i s with
  | .next t => t
  | _ => s0

/-- Whether an event completes. -/
def runs (i : Instr) (s : State) : Bool :=
  match exec i s with
  | .next _ => true
  | _ => false

/-- Why an event is refused, if it is. -/
def refusal (i : Instr) (s : State) : Option Refusal :=
  match exec i s with
  | .refused r => some r
  | _ => none

/-- The fault an event raises, if it does. -/
def faultOf (i : Instr) (s : State) : Option Fault :=
  match exec i s with
  | .fault f => some f
  | _ => none

/-- Why a step refuses, if it does. -/
def stepRefusal (s : State) : Option Refusal :=
  match step s with
  | .refused r => some r
  | _ => none

/-! ## Words: {code, rsv, opnd} written out from R66 and R67 -/

theorem test_decode_reset_low : decode 0b0000000000000000#16 = .ok (.reset .low) := by decide
theorem test_decode_reset_high : decode 0b0000000000000001#16 = .ok (.reset .high) := by decide
theorem test_decode_rot_tick : decode 0b0001000000000000#16 = .ok .rotTick := by decide
theorem test_decode_pwm_tick : decode 0b0010000000000000#16 = .ok .pwmTick := by decide
theorem test_decode_adc_done : decode 0b0011000001111111#16 = .ok (.adcDone 0x7F#8) := by decide
theorem test_decode_run_edge : decode 0b0100000000000000#16 = .ok .runEdge := by decide
theorem test_decode_baro_edge : decode 0b0101000000000000#16 = .ok .baroEdge := by decide
theorem test_decode_fire_psm : decode 0b1000000000000000#16 = .ok .firePsm := by decide
theorem test_decode_fire_ref : decode 0b1001000000000000#16 = .ok .fireRef := by decide
theorem test_decode_fire_adc : decode 0b1010000000000000#16 = .ok .fireAdc := by decide
theorem test_decode_fire_run : decode 0b1011000000000000#16 = .ok .fireRun := by decide
theorem test_decode_fire_baro : decode 0b1100000000000000#16 = .ok .fireBaro := by decide

/-- V-DEC-3, V-DEC-8, V-DEC-9, V-DEC-10, V-DEC-12. -/
theorem test_decode_reserved_bits :
    decode 0x0002#16 = .error .reservedBits ∧ decode 0x1100#16 = .error .reservedBits ∧
    decode 0x2001#16 = .error .reservedBits ∧ decode 0x3F00#16 = .error .reservedBits ∧
    decode 0x8001#16 = .error .reservedBits := by decide

/-- V-DEC-6, V-DEC-7. -/
theorem test_decode_reserved_code :
    decode 0x6000#16 = .error .reservedCode ∧ decode 0x7ABC#16 = .error .reservedCode ∧
    decode 0xD000#16 = .error .reservedCode ∧ decode 0xE123#16 = .error .reservedCode ∧
    decode 0xFFFF#16 = .error .reservedCode := by decide

/-- TC1's entry 0 = 0x10001 and entry 19 = 0x20014 (section 2). -/
theorem test_entry_fields :
    entryDelta 0x10001#18 = 1 ∧ entryMask 0x10001#18 = 0b01#2 ∧
    entryDelta 0x20014#18 = 20 ∧ entryMask 0x20014#18 = 0b10#2 := by decide

theorem test_table_word : decodeTableWord 16 0x30FF = some (.adcDone 255) ∧ decodeTableWord 16 0x6000 = none := by decide

/-- R76: a trace line with a count and a comment, and R77's pseudo-event of P2. -/
theorem test_assemble :
    assemble ["RESET HIGH ; power on", "ROT_TICK * 2", "", "ADC_SAMPLE 0xC8"] =
      some [0x0001#16, 0x1000#16, 0x1000#16, 0x30C8#16, 0xA000#16] := by decide
theorem test_assemble_refuses : assemble ["ADC_DONE 256"] = none ∧ assemble ["ROT_TICK * 0"] = none := by decide

/-! ## Well-formedness: TC1 passes, and one ill-formed configuration for each check of R8 -/

theorem test_tc1_is_valid : Config.tc1.failedCheck = none := by decide
theorem test_illformed_table_len :
    { Config.tc1 with rotTable := Config.tc1TableLow }.failedCheck = some .tableLen := by decide
theorem test_illformed_mask_onehot :
    { Config.tc1 with rotTable := Config.tc1TableHigh ++ 0x30001#18 :: Config.tc1TableLow.tail }.failedCheck =
      some .maskOnehot := by decide
theorem test_illformed_delta_nonzero :
    { Config.tc1 with rotTable := Config.tc1TableHigh ++ 0x10000#18 :: Config.tc1TableLow.tail }.failedCheck =
      some .deltaNonzero := by decide
theorem test_illformed_base_min : { Config.tc1 with baseMin := 0 }.failedCheck = some .deltaNonzero := by decide
/-- (1 + 255) * 20 = 5120 does not fit 12 bits. -/
theorem test_illformed_cmp_fits : { Config.tc1 with cmpW := 12 }.failedCheck = some .cmpFits := by decide
theorem test_illformed_tps_order : { Config.tc1 with tpsMin := 231 }.failedCheck = some .tpsOrder := by decide
theorem test_illformed_deb : { Config.tc1 with debWindow := 65536 }.failedCheck = some .deb := by decide
theorem test_illformed_vss : { Config.tc1 with vssBase := 65281 }.failedCheck = some .vss := by decide
theorem test_illformed_widths : { Config.tc1 with cmpInit := 65536 }.failedCheck = some .widths := by decide

/-! ## RESET and refusals -/

/-- V-DEC-1: RESET LOW as the first event gives S0. -/
theorem test_reset_low : after (.reset .low) { s0 with booted := false, pwmCnt := 7 } = s0 ∧
    runs (.reset .low) { s0 with booted := false } = true := by decide
/-- V-DEC-2: RESET HIGH gives S0 with BARO_DUTY = 200. -/
theorem test_reset_high : after (.reset .high) { s0 with booted := false } = { s0 with baroDuty := 200 } := by decide
/-- V-DEC-4, V-DEC-5, V-DEC-13. -/
theorem test_refusals :
    refusal (.reset .low) s0 = some .resetNotFirst ∧ refusal .rotTick { s0 with booted := false } = some .noReset ∧
    refusal .fireRef s0 = some .notEnabled := by decide
/-- V-DEC-14, and R122's order for a RESET word there. -/
theorem test_fault_state_refuses :
    refusal .rotTick { s0 with fault := some .deadlineMissRef } = some .notEnabled ∧
    refusal (.reset .low) { s0 with fault := some .deadlineMissRef } = some .resetNotFirst := by decide
/-- V-DEC-6 and V-DEC-3 at the step: decoding comes before placement. -/
theorem test_step_decodes_first :
    stepRefusal { s0 with trace := [0x6000#16], booted := false } = some .reservedCode ∧
    stepRefusal { s0 with trace := [0x0002#16], booted := false } = some .reservedBits := by decide
/-- A configuration that fails a check is refused before any event. -/
theorem test_step_bad_config :
    stepRefusal { s0 with cfg := { Config.tc1 with tpsMin := 231 }, trace := [0x6000#16] } =
      some (.badConfig .tpsOrder) := by decide
/-- A placed word is the next event, RESET too. -/
theorem test_with_fetch_word :
    (match step (State.reset.withFetchWord 16 0x1) with | .next t => t.baroDuty | _ => 0) = 200 ∧
    (match step (State.reset.withFetchWord 16 0x307F) with | .next t => t.adcRes | _ => 0) = 0x7F := by decide

/-! ## The timers -/

/-- V-ROT-1 and V-ROT-3. -/
theorem test_rot_tick :
    after .rotTick { s0 with rotCnt := 7 } = { s0 with rotCnt := 7 } ∧
    after .rotTick { s0 with run := true, rotCnt := 5, rotCmp := 6 } =
      { s0 with run := true, rotCnt := 0, rotCmp := 6, pendPsm := true } := by decide
/-- V-ROT-4 and V-ROT-5. -/
theorem test_rot_tick_miss_and_wrap :
    faultOf .rotTick { s0 with run := true, rotCnt := 5, rotCmp := 6, pendPsm := true } =
      some (.raised .deadlineMissPsm
        { s0 with run := true, rotCnt := 0, rotCmp := 6, pendPsm := true, fault := some .deadlineMissPsm }) ∧
    (after .rotTick { s0 with run := true, rotCnt := 65535 }).rotCnt = 0 ∧
    (after .rotTick { s0 with run := true, rotCnt := 65535 }).pendPsm = false := by decide
/-- V-PWM-3. -/
theorem test_pwm_overflow :
    after .pwmTick { s0 with pwmCnt := 255, dutyBufMap := 0x40, dutyBufTps := 230 } =
      { s0 with pwmCnt := 0, dutyBufMap := 0x40, dutyBufTps := 230, dutyActMap := 0x40, dutyActTps := 230,
                pendRef := true } := by decide
/-- V-PWM-4. -/
theorem test_pwm_miss :
    faultOf .pwmTick { s0 with pwmCnt := 255, dutyBufTps := 230, pendRef := true } =
      some (.raised .deadlineMissRef { s0 with pwmCnt := 0, dutyBufTps := 230, dutyActTps := 230, pendRef := true,
                                               fault := some .deadlineMissRef }) := by decide
/-- V-OUT-2, V-OUT-3, V-OUT-5, V-OUT-6. -/
theorem test_pwm_outputs :
    ({ s0 with dutyActTps := 20, pwmCnt := 19 } : State).outputs.pwmTpsOut = true ∧
    ({ s0 with dutyActTps := 20, pwmCnt := 20 } : State).outputs.pwmTpsOut = false ∧
    ({ s0 with dutyActTps := 255, pwmCnt := 254 } : State).outputs.pwmTpsOut = true ∧
    ({ s0 with dutyActTps := 255, pwmCnt := 255 } : State).outputs.pwmTpsOut = false := by decide

/-! ## The handlers -/

/-- V-PSM-1. -/
theorem test_fire_psm :
    after .firePsm { s0 with ch := #v[0, 2, 0, 0], pendPsm := true } =
      { s0 with ch := #v[0, 2, 0, 0], hepA := true, posIdx := 1, rotCmp := 6 } := by decide
/-- V-PSM-3 and V-PSM-4. -/
theorem test_fire_psm_wrap_and_largest :
    after .firePsm { s0 with posIdx := 19, hepB := true, pendPsm := true } = { s0 with posIdx := 0, rotCmp := 1 } ∧
    after .firePsm { s0 with posIdx := 18, ch := #v[0, 255, 0, 0], pendPsm := true } =
      { s0 with posIdx := 19, ch := #v[0, 255, 0, 0], hepA := true, rotCmp := 5120 } := by decide
/-- V-PSM-7 and V-PSM-8: PSM first. -/
theorem test_psm_priority :
    refusal .fireRef { s0 with pendPsm := true, pendRef := true } = some .notEnabled ∧
    refusal .fireAdc { s0 with pendPsm := true, pendAdc := true } = some .notEnabled ∧
    refusal .fireRun { s0 with pendPsm := true, pendRun := true } = some .notEnabled ∧
    refusal .fireBaro { s0 with pendPsm := true, pendBaro := true } = some .notEnabled := by decide
/-- V-REF-1. -/
theorem test_fire_ref :
    after .fireRef { s0 with pendRef := true, ch := #v[0x40, 2, 0, 255] } =
      { s0 with ch := #v[0x40, 2, 0, 255], dutyBufTps := 230, dutyBufMap := 0x40, vssDiv := 3 } := by decide
/-- V-TPS-2, V-MAP-3, V-DEB-3 and V-VSS-3 in one refresh. -/
theorem test_fire_ref_corners :
    after .fireRef { s0 with pendRef := true, baroFlag := true, deb := 3, vssDiv := 1, vssPin := true,
                             ch := #v[0, 0, 255, 19] } =
      { s0 with baroFlag := true, deb := 2, vssDiv := 259, vssPin := false, ch := #v[0, 0, 255, 19],
                dutyBufTps := 20, dutyBufMap := 100 } := by decide
/-- V-ADC-1 and V-ADC-3. -/
theorem test_adc_done :
    after (.adcDone 0x7F) { s0 with adcMux := 2 } =
      { s0 with adcMux := 2, adcRes := 0x7F, adcBusy := false, pendAdc := true } ∧
    refusal (.adcDone 0) { s0 with adcBusy := false, pendAdc := true } = some .notEnabled := by decide
/-- V-ADC-5. -/
theorem test_fire_adc :
    after .fireAdc { s0 with adcIdx := 3, adcMux := 3, adcRes := 0xC8, adcBusy := false, pendAdc := true } =
      { s0 with ch := #v[0, 0, 0, 0xC8], adcRes := 0xC8 } := by decide
/-- V-RUN-1 and V-RUN-2. -/
theorem test_run_edge :
    after .runEdge s0 = { s0 with pendRun := true } ∧
    after .runEdge { s0 with pendRun := true } = { s0 with pendRun := true } := by decide
/-- V-RUN-4 and V-RUN-5. -/
theorem test_fire_run :
    after .fireRun { s0 with run := true, pendRun := true } = { s0 with run := false, deb := 3 } ∧
    after .fireRun { s0 with run := true, deb := 1, pendRun := true } = { s0 with run := true, deb := 1 } := by decide
/-- V-BAR-1 and V-BAR-2. -/
theorem test_baro_edge :
    after .baroEdge s0 = { s0 with pendBaro := true } ∧
    faultOf .baroEdge { s0 with pendBaro := true } =
      some (.raised .deadlineMissBaro { s0 with pendBaro := true, fault := some .deadlineMissBaro }) := by decide
/-- V-BAR-3. -/
theorem test_fire_baro :
    after .fireBaro { s0 with pendBaro := true, deb := 2 } = { s0 with baroFlag := true, deb := 2 } := by decide

/-! ## Witnesses: the hypotheses of the statements can be met -/

/-- S0 meets R43's relations. -/
theorem s0_consistent : Consistent s0 where
  posIdx_lt := by decide
  mux_eq := by decide
  one_conversion := by decide
  vssDiv_pos := by decide
  vssDiv_le := by decide
  vssDiv_lt := by decide
  rotCmp_pos := by decide
  rotCmp_le := by decide
  rotCnt_lt := by decide
  deb_le := by decide

/-- A firing pending just after a match, with RUN = 1. -/
abbrev sPsm : State := { s0 with run := true, pendPsm := true }

theorem sPsm_consistent : Consistent sPsm :=
  ⟨by decide, by decide, by decide, by decide, by decide, by decide, by decide, by decide, by decide, by decide⟩

theorem sPsm_invariant : MachineInv sPsm := ⟨by decide, fun _ => sPsm_consistent⟩

theorem witness_EveryDecodedWordIsTheEventsWord : decode 0x30FF#16 = .ok (.adcDone 255) := by decide
theorem witness_StepRunsTheDecodedEvent :
    ValidConfig s0.cfg ∧ ({ s0 with trace := [0x307F#16, 0xA000#16] } : State).trace = 0x307F#16 :: [0xA000#16] ∧
    decode 0x307F#16 = .ok (.adcDone 0x7F) := by decide
theorem witness_StepRefusesUndecodableWordFirst :
    ValidConfig s0.cfg ∧ decode 0x6000#16 = .error .reservedCode ∧ decode 0x1100#16 = .error .reservedBits := by decide
theorem witness_ConfigurationChecksAreNamedAndRefused :
    ¬ ValidConfig { Config.tc1 with baseMin := 0 } := by decide
theorem witness_IdleBlockKeepsItsState : ValidConfig s0.cfg ∧ s0.trace = [] := by decide
theorem witness_TraceOfWordsRunsItsEvents :
    ValidConfig s0.cfg ∧ runEvents [.runEdge, .fireRun] { s0 with trace := [0x1000#16] } =
      .next { s0 with trace := [0x1000#16], run := true, deb := 3 } :=
  ⟨by decide, rfl⟩
theorem witness_ResetLeavesTheStatedValues :
    ({ s0 with booted := false } : State).booted = false ∧ s0.booted = true ∧ (∀ c, Instr.rotTick ≠ .reset c) :=
  ⟨rfl, rfl, fun _ => by simp⟩

/-- One state for each clause of R109: fault, stopped, counting, match, missed match. -/
theorem witness_RotTickCountsMatchesOrMissesDeadline :
    (s0.booted = true ∧ ({ s0 with fault := some .deadlineMissRef } : State).fault ≠ none) ∧
    (s0.fault = none ∧ s0.run = false) ∧
    (sPsm.run = true ∧ (65535 + 1) % 2 ^ sPsm.cfg.cmpW ≠ sPsm.rotCmp) ∧
    (({ s0 with run := true, rotCnt := 9 } : State).run = true ∧ (9 + 1) % 2 ^ s0.cfg.cmpW = s0.rotCmp ∧
      s0.pendPsm = false) ∧ sPsm.pendPsm = true := by decide
/-- One state for each clause of R111, at the boundary counts 254 and 255. -/
theorem witness_PwmTickCountsLatchesOrMissesDeadline :
    s0.booted = true ∧ s0.fault = none ∧ ({ s0 with pwmCnt := 254 } : State).pwmCnt.toNat < 255 ∧
    (({ s0 with pwmCnt := 255 } : State).pwmCnt.toNat = 255 ∧ s0.pendRef = false) ∧
    ({ s0 with pwmCnt := 255, pendRef := true } : State).pendRef = true := by decide
theorem witness_MatchComesAfterTheTicksLeft :
    let s : State := { s0 with run := true, rotCnt := 9 }
    Live s ∧ s.run = true ∧ s.pendPsm = false ∧ s.rotCnt < s.rotCmp ∧ s.rotCmp < 2 ^ s.cfg.cmpW ∧
      s.rotCnt + 0 < s.rotCmp := by decide
/-- P4's state after its late FIRE_PSM. -/
theorem witness_RearmRaceDelaysTheMatchByAWrap :
    let s : State := { s0 with run := true, rotCnt := 5, rotCmp := 2 }
    Live s ∧ s.run = true ∧ s.pendPsm = false ∧ 1 ≤ s.rotCmp ∧ s.rotCmp ≤ s.rotCnt ∧ s.rotCnt < 2 ^ s.cfg.cmpW := by
  decide
theorem witness_StoppedRotationIsFrozen :
    s0.booted = true ∧ s0.run = false ∧ .fireRun ∉ [Instr.rotTick, .pwmTick] ∧
    runEvents [.rotTick, .pwmTick] s0 = .next { s0 with pwmCnt := 1 } ∧ s0.pendPsm = false :=
  ⟨rfl, rfl, by decide, rfl, rfl⟩
theorem witness_PwmPeriodIs256Ticks :
    (Live s0 ∧ s0.pendRef = false) ∧ Live { s0 with pendRef := true } := by decide
theorem witness_ActiveDutiesHoldThroughThePeriod :
    s0.booted = true ∧ runEvents [.pwmTick] { s0 with pwmCnt := 254 } = .next { s0 with pwmCnt := 255 } ∧
    ({ s0 with pwmCnt := 254 } : State).pwmCnt.toNat + [Instr.pwmTick].count .pwmTick < 256 :=
  ⟨rfl, rfl, by decide⟩

theorem witness_FirePsmTogglesAdvancesAndReloads :
    s0.booted = true ∧ ¬ (s0.fault = none ∧ s0.pendPsm = true) ∧
    (sPsm.fault = none ∧ sPsm.pendPsm = true ∧ ValidConfig sPsm.cfg ∧ sPsm.posIdx.toNat < 20) := by decide
theorem witness_FirePsmInvertsExactlyTheSelectedPin :
    Live sPsm ∧ sPsm.pendPsm = true ∧ ValidConfig sPsm.cfg ∧
    ({ sPsm with posIdx := 19 } : State).posIdx.toNat < 20 := by decide
theorem witness_CompareReloadFitsAndIncreasesWithSample :
    Live sPsm ∧ sPsm.pendPsm = true ∧ ValidConfig sPsm.cfg ∧ sPsm.posIdx.toNat < 20 ∧
    (254#8).toNat < (255#8).toNat := by decide
theorem witness_TableReadsInRangeAndRefusedOutside :
    ValidConfig s0.cfg ∧ (19#5).toNat < 20 ∧ Live { sPsm with posIdx := 20 } ∧
    20 ≤ ({ sPsm with posIdx := 20 } : State).posIdx.toNat := by decide
theorem witness_PositionCountsFiringsModTwenty :
    ({ sPsm with posIdx := 19 } : State).posIdx.toNat < 20 ∧
    runEvents [.firePsm] { sPsm with posIdx := 19 } =
      .next { sPsm with posIdx := 0, hepB := true, rotCmp := 1, pendPsm := false } := ⟨by decide, rfl⟩
theorem witness_CycleOfTwentyFiringsHasConstantPeriod :
    Live s0 ∧ ValidConfig s0.cfg ∧ s0.posIdx.toNat < 20 := by decide
/-- TC1's table has ten entries for each pin. -/
theorem witness_CycleOfTwentyFiringsTogglesPinsPerEntry :
    Live s0 ∧ ValidConfig s0.cfg ∧ s0.posIdx.toNat < 20 ∧
    (s0.cfg.rotTable.countP fun e => entryMask e = 0b01#2) = 10 := by decide

theorem witness_FireRefRefreshesDutiesAndCounters :
    let s : State := { s0 with pendRef := true }
    (s.booted = true ∧ s.fault = none ∧ s.pendRef = true ∧ s.pendPsm = false) ∧ 2 ≤ s.vssDiv ∧
    ({ s with vssDiv := 1 } : State).vssDiv = 1 ∧
    ¬ (s0.fault = none ∧ s0.pendRef = true ∧ s0.pendPsm = false) := by decide
/-- The three clauses of the clamp, at 19, 20, 230 and 231 between the bounds 20 and 230. -/
theorem witness_TpsDutyIsClampedIntoItsBounds :
    let s : State := { s0 with pendRef := true }
    (Live s ∧ s.pendRef = true ∧ s.pendPsm = false ∧ ValidConfig s.cfg) ∧
    (19#8).toNat < s.cfg.tpsMin.toNat ∧ s.cfg.tpsMax.toNat < (231#8).toNat ∧
    (s.cfg.tpsMin.toNat ≤ (20#8).toNat ∧ (230#8).toNat ≤ s.cfg.tpsMax.toNat) := by decide
theorem witness_MapDutyIsIndependentOfSampleInBaroMode :
    let s : State := { s0 with pendRef := true }
    (Live s ∧ s.pendRef = true ∧ s.pendPsm = false ∧ s.baroFlag = false) ∧
    ({ s with baroFlag := true } : State).baroFlag = true := by decide
theorem witness_SpeedPinInvertsOncePerDividerCount :
    let s : State := { s0 with pendRef := true, vssDiv := 1 }
    (s.booted = true ∧ runEvents [.rotTick] s = .next s) ∧ [Instr.rotTick].count .fireRef < s.vssDiv ∧
    [Instr.rotTick].count .fireRef + 1 = s.vssDiv ∧ runs .fireRef s = true :=
  ⟨⟨rfl, rfl⟩, by decide, by decide, by decide⟩

theorem witness_AdcDoneRecordsTheResult :
    s0.booted = true ∧ (s0.fault = none ∧ s0.adcBusy = true) ∧
    ¬ (({ s0 with adcBusy := false } : State).fault = none ∧ ({ s0 with adcBusy := false } : State).adcBusy = true) := by
  decide
theorem witness_FireAdcStoresAndStartsNextChannel :
    let s : State := { s0 with pendAdc := true, adcBusy := false, adcIdx := 3 }
    s.booted = true ∧ s.fault = none ∧ s.pendAdc = true ∧ s.pendPsm = false ∧
    ¬ (s0.fault = none ∧ s0.pendAdc = true ∧ s0.pendPsm = false) := by decide
theorem witness_SequencerCountsSamplesModFour :
    s0.booted = true ∧ runs (.adcDone 1) s0 = true ∧ runs .fireAdc (after (.adcDone 1) s0) = true := by decide
theorem witness_FourConversionsFillEveryChannelOnce :
    Live s0 ∧ s0.pendPsm = false ∧ s0.adcBusy = true := by decide
theorem witness_ResultIsStoredInItsOwnChannel :
    s0.booted = true ∧ Consistent s0 ∧ .fireAdc ∉ [Instr.runEdge] ∧
    ∃ t, runEvents (.adcDone 5 :: [Instr.runEdge] ++ [.fireAdc]) s0 = .next t :=
  ⟨rfl, s0_consistent, by decide, _, rfl⟩
theorem witness_MultiplexerIsStableDuringConversion :
    s0.booted = true ∧ Consistent s0 ∧ s0.adcBusy = true ∧ runs .runEdge s0 = true ∧
    adcStart .fireAdc { s0 with pendAdc := true, adcBusy := false } = true :=
  ⟨rfl, s0_consistent, rfl, by decide, by decide⟩
theorem witness_ConversionNeverMissesItsDeadline :
    s0.booted = true ∧ Consistent s0 ∧ ∃ t, exec (.adcDone 0) s0 = .next t := ⟨rfl, s0_consistent, _, rfl⟩

theorem witness_RunEdgePendsOrIsAbsorbed :
    s0.booted = true ∧ (s0.fault = none ∧ s0.pendRun = false) ∧ ({ s0 with pendRun := true } : State).pendRun = true ∧
    ({ s0 with fault := some .deadlineMissPsm } : State).fault ≠ none := by decide
theorem witness_FireRunInvertsRunOnlyWhenIdle :
    let s : State := { s0 with pendRun := true }
    (s.booted = true ∧ s.fault = none ∧ s.pendRun = true ∧ s.pendPsm = false) ∧ s.deb = 0 ∧
    0 < ({ s with deb := 1 } : State).deb ∧ ¬ (s0.fault = none ∧ s0.pendRun = true ∧ s0.pendPsm = false) := by decide
theorem witness_IgnoreWindowLastsDebRefreshes :
    let s : State := { s0 with pendRun := true, deb := 1 }
    s.booted = true ∧ runEvents [.fireRun] s = .next { s with pendRun := false } ∧
    [Instr.fireRun].count .fireRef < s.deb := ⟨rfl, rfl, by decide⟩
theorem witness_BaroEdgePendsOrMissesDeadline :
    s0.booted = true ∧ (s0.fault = none ∧ s0.pendBaro = false) ∧
    ({ s0 with pendBaro := true } : State).pendBaro = true ∧
    ({ s0 with fault := some .deadlineMissPsm } : State).fault ≠ none := by decide
theorem witness_FireBaroAlwaysInvertsBaroFlag :
    let s : State := { s0 with pendBaro := true }
    (s.booted = true ∧ s.fault = none ∧ s.pendBaro = true ∧ s.pendPsm = false) ∧
    ¬ (s0.fault = none ∧ s0.pendBaro = true ∧ s0.pendPsm = false) := by decide
theorem witness_BaroEdgesNeedADispatchBetween :
    s0.booted = true ∧ .fireBaro ∉ [Instr.pwmTick] ∧ runs .baroEdge s0 = true := by decide

/-- RUN_EDGE completes, so the premise of the writers' rule is met; the other constructors complete in their tests. -/
theorem witness_EachElementHasItsWriters : s0.booted = true ∧ ∃ t, exec .runEdge s0 = .next t := ⟨rfl, _, rfl⟩
theorem witness_PendingBitsSetBySourceClearedByDispatch :
    s0.booted = true ∧ (∃ t, exec .baroEdge s0 = .next t ∧ s0.pending .baro = false ∧ t.pending .baro = true) ∧
    (∃ t, exec .fireBaro { s0 with pendBaro := true } = .next t ∧
      ({ s0 with pendBaro := true } : State).pending .baro = true ∧ t.pending .baro = false) :=
  ⟨rfl, ⟨_, rfl, rfl, rfl⟩, ⟨_, rfl, rfl, rfl⟩⟩
theorem witness_DispatchEnabledExactlyByPendingAndPriority :
    s0.booted = true ∧ ValidConfig s0.cfg ∧ s0.posIdx.toNat < 20 ∧ runs Source.psm.fire sPsm = true ∧
    runs Source.ref.fire s0 = false := by decide
theorem witness_FaultStateEnablesNoEvent :
    ({ s0 with fault := some .deadlineMissBaro } : State).booted = true ∧
    ({ s0 with fault := some .deadlineMissBaro } : State).fault ≠ none := by decide
theorem witness_EnvironmentEventsAreNeverBlocked : Live sPsm := by decide
theorem witness_EveryStepKeepsTheInvariant :
    MachineInv { sPsm with trace := [0x8000#16] } ∧ ∃ t, step { sPsm with trace := [0x8000#16] } = .next t :=
  ⟨⟨by decide, fun _ => ⟨by decide, by decide, by decide, by decide, by decide, by decide, by decide, by decide,
    by decide, by decide⟩⟩, _, rfl⟩
theorem witness_ReachedStatesAreConsistent : Reached s0 :=
  .reset .low { s0 with booted := false } s0 (by decide) rfl

/-- An infinite run with nothing pending after its first event: a firing pending at the stop (R89) is dispatched, and
then the stopped rotation clock ticks. -/
def fairStates : Nat → State
  | 0 => { s0 with pendPsm := true }
  | _ + 1 => after .firePsm { s0 with pendPsm := true }

/-- Its events. -/
def fairEvents : Nat → Instr
  | 0 => .firePsm
  | _ + 1 => .rotTick

theorem fairRun_is_infinite : InfiniteRun fairStates fairEvents := by
  intro n
  cases n <;> rfl

theorem fairRun_is_fair : WeaklyFair fairStates fairEvents := by
  intro src n h
  obtain ⟨t, ht⟩ := h (n + 1) (by omega)
  have idle : runs src.fire (fairStates (n + 1)) = false := by
    show runs src.fire (after .firePsm { s0 with pendPsm := true }) = false
    cases src <;> decide
  simp [runs, ht] at idle

theorem witness_FairRunDispatchesPendingPsm :
    InfiniteRun fairStates fairEvents ∧ WeaklyFair fairStates fairEvents ∧ Live (fairStates 0) ∧
    MachineInv (fairStates 0) ∧ (fairStates 0).pendPsm = true :=
  ⟨fairRun_is_infinite, fairRun_is_fair, by decide, ⟨by decide, fun _ => ⟨by decide, by decide, by decide, by decide,
    by decide, by decide, by decide, by decide, by decide, by decide⟩⟩, by decide⟩

/-- The free-running sampling loop of R100: conversions of 0, each stored as soon as it completes. -/
def loopEvents (n : Nat) : Instr := if n % 2 = 0 then .adcDone 0 else .fireAdc

/-- Its states, from S0. -/
def loopStates : Nat → State
  | 0 => s0
  | n + 1 => after (loopEvents n) (loopStates n)

theorem loop_period (n : Nat) : loopStates n = loopStates (n % 8) := by
  have step8 : ∀ k, loopStates (k + 8) = loopStates k := by
    intro k
    induction k with
    | zero => decide
    | succ k ih =>
      show after (loopEvents (k + 8)) (loopStates (k + 8)) = after (loopEvents k) (loopStates k)
      rw [ih, loopEvents, loopEvents, show (k + 8) % 2 = k % 2 by omega]
  induction n using Nat.strongRecOn with
  | _ n ih =>
    by_cases h : n < 8
    · rw [Nat.mod_eq_of_lt h]
    · have h8 := step8 (n - 8)
      rw [Nat.sub_add_cancel (by omega)] at h8
      rw [h8, ih _ (by omega), show (n - 8) % 8 = n % 8 by omega]

/-- Each of its events completes, with no bit but PEND_ADC ever set. -/
theorem loop_runs (n : Nat) :
    runs (loopEvents n) (loopStates n) = true ∧ ∀ src, src ≠ .adc → (loopStates n).pending src = false := by
  have h8 : ∀ k < 8, runs (loopEvents k) (loopStates k) = true ∧
      ∀ src ∈ [Source.psm, .ref, .run, .baro], (loopStates k).pending src = false := by decide
  obtain ⟨hr, hp⟩ := h8 (n % 8) (by omega)
  rw [← loop_period, loopEvents, show n % 8 % 2 = n % 2 by omega] at hr
  rw [← loop_period] at hp
  exact ⟨hr, fun src hs => hp src (by cases src <;> simp_all)⟩

theorem loop_is_infinite : InfiniteRun loopStates loopEvents := by
  intro n
  have h := (loop_runs n).1
  show _ = Host.Outcome.next (after (loopEvents n) (loopStates n))
  unfold runs at h
  unfold after
  split at h <;> simp_all

theorem loop_is_fair : FairDispatch loopStates loopEvents := by
  intro src n h
  by_cases hs : src = .adc
  · exact ⟨2 * n + 1, by omega, by simp [loopEvents, hs, Source.fire]⟩
  · exact absurd (h n (by omega)) (by simp [(loop_runs n).2 src hs])

theorem loop_completes : ConverterCompletes loopStates loopEvents := fun n _ => ⟨2 * n, 0, by omega, by simp [loopEvents]⟩

theorem witness_FairDispatchRefreshesEveryChannelForever :
    InfiniteRun loopStates loopEvents ∧ FairDispatch loopStates loopEvents ∧ ConverterCompletes loopStates loopEvents ∧
    Live (loopStates 0) ∧ MachineInv (loopStates 0) :=
  ⟨loop_is_infinite, loop_is_fair, loop_completes, by decide, by decide, fun _ => s0_consistent⟩
theorem witness_QuietPsmRefreshesEveryChannelForever :
    InfiniteRun loopStates loopEvents ∧ WeaklyFair loopStates loopEvents ∧ ConverterCompletes loopStates loopEvents ∧
    Live (loopStates 0) ∧ MachineInv (loopStates 0) ∧ ∀ m, 0 ≤ m → (loopStates m).pendPsm = false :=
  ⟨loop_is_infinite, fairDispatch_weaklyFair loop_is_fair, loop_completes, by decide, ⟨by decide, fun _ => s0_consistent⟩,
    fun m _ => (loop_runs m).2 .psm (by decide)⟩

theorem witness_MetDeadlineNeverStretchesAnInterval :
    MachineInv sPsm ∧ sPsm.booted = true ∧
    ∃ u, runEvents ([] ++ [.firePsm]) sPsm = .next u ∧ u.run = true ∧ u.rotCnt < u.rotCmp :=
  ⟨sPsm_invariant, rfl, _, rfl, rfl, by decide⟩
theorem witness_run_meets_deadline : MeetsDeadline ([] ++ [.firePsm]) sPsm := by
  refine ⟨fun _ => ?_, _, rfl, trivial⟩
  rintro ⟨t, h, hle⟩
  have ht : t = after .firePsm sPsm := by simp only [after, h]
  subst ht
  revert hle
  decide

end Sys2Proof.Machine.Tests
end

section
/-! PROOFS. Spec 00_scope: the named configuration checks (R8), the step on a decodable word (R12, R122) and a trace of
event words as a run of its events (R5, R59). -/

namespace Sys2Proof

/-! ## The configuration checks -/

/-- A bound on a multiple of a running maximum is a bound on the start and on each element. -/
theorem mul_foldl_max_le_iff (k n : Nat) (xs : List Nat) (a : Nat) :
    k * xs.foldl max a ≤ n ↔ k * a ≤ n ∧ ∀ x ∈ xs, k * x ≤ n := by
  induction xs generalizing a with
  | nil => simp
  | cons x xs ih => simp [ih, ← Nat.mul_max_mul_left, and_assoc]

/-- R8 states cfg_cmp_fits for each delta, the model for the largest one; an empty table meets both. -/
theorem Config.mul_maxDelta_le_iff (c : Config) (k n : Nat) :
    k * c.maxDelta ≤ n ↔ ∀ e ∈ c.rotTable, k * entryDelta e ≤ n := by
  simp [Config.maxDelta, mul_foldl_max_le_iff]

theorem Config.passes_tableLen_iff (c : Config) : c.passes .tableLen = true ↔ c.rotTable.length = 20 := by
  simp [Config.passes, rotLen]

theorem Config.passes_maskOnehot_iff (c : Config) :
    c.passes .maskOnehot = true ↔ ∀ e ∈ c.rotTable, entryMask e = 0b01#2 ∨ entryMask e = 0b10#2 := by
  simp [Config.passes]

theorem Config.passes_deltaNonzero_iff (c : Config) :
    c.passes .deltaNonzero = true ↔ (∀ e ∈ c.rotTable, 1 ≤ entryDelta e) ∧ 1 ≤ c.baseMin := by
  simp [Config.passes]

theorem Config.passes_cmpFits_iff (c : Config) :
    c.passes .cmpFits = true ↔
      (∀ e ∈ c.rotTable, (c.baseMin + 255) * entryDelta e ≤ 2 ^ c.cmpW - 1) ∧ 1 ≤ c.cmpInit := by
  simp only [Config.passes, Bool.and_eq_true, decide_eq_true_eq, Config.mul_maxDelta_le_iff]

theorem Config.passes_tpsOrder_iff (c : Config) :
    c.passes .tpsOrder = true ↔ c.tpsMin.toNat ≤ c.tpsMax.toNat := by
  simp [Config.passes, BitVec.le_def]

theorem Config.passes_deb_iff (c : Config) :
    c.passes .deb = true ↔ 1 ≤ c.debWindow ∧ c.debWindow ≤ 2 ^ c.debW - 1 := by
  simp only [Config.passes, Bool.and_eq_true, decide_eq_true_eq]

theorem Config.passes_vss_iff (c : Config) :
    c.passes .vss = true ↔ 1 ≤ c.vssBase ∧ c.vssBase + 255 ≤ 2 ^ c.vssW - 1 ∧ 1 ≤ c.vssDivInit := by
  simp only [Config.passes, Bool.and_eq_true, decide_eq_true_eq, and_assoc]

theorem Config.passes_widths_iff (c : Config) :
    c.passes .widths = true ↔ c.cmpInit < 2 ^ c.cmpW ∧ c.vssDivInit < 2 ^ c.vssW := by
  simp only [Config.passes, Bool.and_eq_true, decide_eq_true_eq]

/-- R8's list leaves no check out. -/
theorem ConfigCheck.mem_all (k : ConfigCheck) : k ∈ ConfigCheck.all := by
  cases k <;> decide

/-- A configuration is accepted exactly when it passes every check. -/
theorem Config.failedCheck_eq_none_iff (c : Config) : c.failedCheck = none ↔ ∀ k, c.passes k = true := by
  simp [Config.failedCheck, ConfigCheck.mem_all]

/-- The check a configuration is refused by is one it fails. -/
theorem Config.passes_of_failedCheck {c : Config} {k : ConfigCheck} (h : c.failedCheck = some k) :
    c.passes k = false := by
  simpa using List.find?_some h

/-! ## The decoder on the words of events -/

/-- R66 to R68: the word of an event decodes to it. Only ADC_DONE's operand takes more than the two selector values, and
its word is read through its fields. -/
theorem decode_encode (i : Instr) : decode (encode i) = .ok i := by
  cases i with
  | reset cal => cases cal <;> rfl
  | adcDone v =>
    obtain ⟨hcode, hrsv, hopnd⟩ := Laws.WordFields.adcDone v
    simp [decode, decodeAdcDone, hcode, hrsv, hopnd, codeOf, operandOf]
  | rotTick | pwmTick | runEdge | baroEdge | firePsm | fireRef | fireAdc | fireRun | fireBaro => rfl

namespace Machine

/-! ## One step -/

/-- R8, R122: a failed check is refused by its name, whatever the trace holds. -/
theorem step_of_failedCheck {s : State} {k : ConfigCheck} (h : s.cfg.failedCheck = some k) :
    step s = .refused (.badConfig k) := by
  simp [step, configRefusal, h]

/-- R12, R59: under a valid configuration the step is the decoder and the event on the rest of the trace. -/
theorem step_of_trace_cons {s : State} {w : EventWord} {rest : List EventWord} (hv : ValidConfig s.cfg)
    (ht : s.trace = w :: rest) : step s = takeEvent w s := by
  simp [step, configRefusal, hv, ht]

theorem takeEvent_of_decode_ok {w : EventWord} {i : Instr} (hd : decode w = .ok i) (s : State) :
    takeEvent w s = exec i s.popEvent := by
  simp [takeEvent, hd]

/-- Settles O6: a lemma for each check, and the step on a configuration that fails one. -/
theorem configurationChecksAreNamedAndRefused : Obligations.ConfigurationChecksAreNamedAndRefused := by
  intro c
  refine ⟨c.passes_tableLen_iff, c.passes_maskOnehot_iff, c.passes_deltaNonzero_iff, c.passes_cmpFits_iff,
    c.passes_tpsOrder_iff, c.passes_deb_iff, c.passes_vss_iff, c.passes_widths_iff, c.failedCheck_eq_none_iff, ?_⟩
  rintro s rfl hinvalid
  obtain ⟨k, hk⟩ := Option.ne_none_iff_exists'.1 hinvalid
  exact ⟨k, Config.passes_of_failedCheck hk, step_of_failedCheck hk⟩

/-- Settles O7: the configuration is accepted, so the step takes the word and runs what it decodes to. -/
theorem stepRunsTheDecodedEvent : Obligations.StepRunsTheDecodedEvent := by
  intro s w rest i hv ht hd
  have hpop : s.popEvent = { s with trace := rest } := by simp [State.popEvent, ht]
  rw [step_of_trace_cons hv ht, takeEvent_of_decode_ok hd, hpop]

/-! ## No event reads or writes the trace

An event's meaning runs with the words still to come in the state (log 1), so a run of events and the steps of a machine
that holds their words can be compared only because no operation depends on them. -/

/-- A state with other words still to come. -/
def State.withTrace (s : State) (ws : List EventWord) : State := { s with trace := ws }

@[simp] theorem withTrace_cfg (s : State) (ws : List EventWord) : (s.withTrace ws).cfg = s.cfg := rfl
@[simp] theorem withTrace_trace (s : State) (ws : List EventWord) : (s.withTrace ws).trace = ws := rfl
@[simp] theorem withTrace_booted (s : State) (ws : List EventWord) : (s.withTrace ws).booted = s.booted := rfl
@[simp] theorem withTrace_pending (s : State) (ws : List EventWord) (src : Source) :
    (s.withTrace ws).pending src = s.pending src := by
  cases src <;> rfl

theorem withTrace_setPending (s : State) (ws : List EventWord) (src : Source) (b : Bool) :
    (s.withTrace ws).setPending src b = (s.setPending src b).withTrace ws := by
  cases src <;> rfl

theorem mayDispatch_withTrace (src : Source) (s : State) (ws : List EventWord) :
    mayDispatch src (s.withTrace ws) = mayDispatch src s := by
  cases src <;> rfl

/-- An operation that completes does the same with any other words still to come, and leaves those in place. -/
def IgnoresTrace (op : State → Result) : Prop :=
  ∀ (s t : State) (ws : List EventWord), op s = .next t → op (s.withTrace ws) = .next (t.withTrace ws)

/-- An update that commutes with exchanging the trace, as an operation. -/
theorem ignoresTrace_next {f : State → State}
    (hf : ∀ (s : State) (ws : List EventWord), f (s.withTrace ws) = (f s).withTrace ws) :
    IgnoresTrace fun s => .next (f s) := by
  rintro s t ws ⟨⟩
  exact congrArg _ (hf s ws)

/-- An operation that ignores the trace still does so after an update that commutes with exchanging it. -/
theorem IgnoresTrace.comp {op : State → Result} {f : State → State} (hop : IgnoresTrace op)
    (hf : ∀ (s : State) (ws : List EventWord), f (s.withTrace ws) = (f s).withTrace ws) :
    IgnoresTrace fun s => op (f s) := by
  intro s t ws h
  simpa only [hf] using hop (f s) t ws h

/-- A choice between two operations by a condition that does not read the trace. -/
theorem IgnoresTrace.ite {c : State → Prop} [DecidablePred c] {op op' : State → Result}
    (hc : ∀ (s : State) (ws : List EventWord), c (s.withTrace ws) ↔ c s) (hop : IgnoresTrace op)
    (hop' : IgnoresTrace op') : IgnoresTrace fun s => if c s then op s else op' s := by
  intro s t ws h
  by_cases hcs : c s
  · simp only [hc, if_pos hcs] at h ⊢
    exact hop s t ws h
  · simp only [hc, if_neg hcs] at h ⊢
    exact hop' s t ws h

theorem hepToggle_withTrace (m : BitVec 2) (s : State) (ws : List EventWord) :
    hepToggle m (s.withTrace ws) = (hepToggle m s).withTrace ws := by
  unfold hepToggle
  split
  · rfl
  · split <;> rfl

theorem whenEnabled_ignoresTrace {en : State → Bool} {op : State → Result}
    (hen : ∀ (s : State) (ws : List EventWord), en (s.withTrace ws) = en s) (hop : IgnoresTrace op) :
    IgnoresTrace (whenEnabled en op) := by
  intro s t ws h
  obtain ⟨hb, hf, he, hs⟩ := (whenEnabled_next_iff en op s t).1 h
  exact (whenEnabled_next_iff ..).2 ⟨hb, hf, (hen s ws).trans he, hop s t ws hs⟩

theorem dispatch_ignoresTrace {src : Source} {op : State → Result} (hop : IgnoresTrace op) :
    IgnoresTrace (dispatch src op) :=
  whenEnabled_ignoresTrace (mayDispatch_withTrace src) (hop.comp fun s ws => withTrace_setPending s ws src false)

theorem raiseSource_ignoresTrace (src : Source) (miss : FaultReason) : IgnoresTrace (raiseSource src miss) := by
  intro s t ws h
  obtain ⟨hp, rfl⟩ := (raiseSource_next_iff src miss s t).1 h
  rw [raiseSource_next_iff, withTrace_pending, withTrace_setPending]
  exact ⟨hp, rfl⟩

theorem execReset_ignoresTrace (cal : CalSel) : IgnoresTrace (execReset cal) := by
  intro s t ws h
  obtain ⟨hb, rfl⟩ := reset_next h
  simp only [execReset, withTrace_booted, hb]
  rfl

theorem tickRotation_ignoresTrace : IgnoresTrace tickRotation :=
  .ite (fun _ _ => .rfl) (ignoresTrace_next fun _ _ => rfl) <|
    .ite (fun _ _ => .rfl) ((raiseSource_ignoresTrace _ _).comp fun _ _ => rfl) (ignoresTrace_next fun _ _ => rfl)

theorem tickPwm_ignoresTrace : IgnoresTrace tickPwm :=
  .ite (fun _ _ => .rfl) ((raiseSource_ignoresTrace _ _).comp fun _ _ => rfl) (ignoresTrace_next fun _ _ => rfl)

theorem toggleRun_ignoresTrace : IgnoresTrace toggleRun :=
  .ite (fun _ _ => .rfl) (ignoresTrace_next fun _ _ => rfl) (ignoresTrace_next fun _ _ => rfl)

theorem advancePosition_of_memRead {s : State} {n : EntryWord} (hn : s.memRead (nextPos s.posIdx) = some n) :
    advancePosition s = .next { s with
      posIdx := nextPos s.posIdx, rotCmp := nextDelay s.cfg (s.chRead chRpm) (entryDelta n) } := by
  simp only [advancePosition, hn]

theorem firePosition_of_memRead {s : State} {e : EntryWord} (he : s.memRead s.posIdx = some e) :
    firePosition s = advancePosition (hepToggle (entryMask e) s) := by
  simp only [firePosition, he]

theorem advancePosition_ignoresTrace : IgnoresTrace advancePosition := by
  intro s t ws h
  cases hn : s.memRead (nextPos s.posIdx) with
  | none => simp [advancePosition, hn] at h
  | some n =>
    rw [advancePosition_of_memRead hn] at h
    cases h
    exact advancePosition_of_memRead (s := s.withTrace ws) hn

theorem firePosition_ignoresTrace : IgnoresTrace firePosition := by
  intro s t ws h
  cases he : s.memRead s.posIdx with
  | none => simp [firePosition, he] at h
  | some e =>
    rw [firePosition_of_memRead he] at h
    rw [firePosition_of_memRead (s := s.withTrace ws) he, hepToggle_withTrace]
    exact advancePosition_ignoresTrace _ t ws h

/-- Every event does the same with any other words still to come, and leaves those in place. -/
theorem exec_ignoresTrace (i : Instr) : IgnoresTrace (exec i) := by
  cases i with
  | reset cal => exact execReset_ignoresTrace cal
  | rotTick => exact whenEnabled_ignoresTrace (fun _ _ => rfl) tickRotation_ignoresTrace
  | pwmTick => exact whenEnabled_ignoresTrace (fun _ _ => rfl) tickPwm_ignoresTrace
  | adcDone v => exact whenEnabled_ignoresTrace (fun _ _ => rfl) (ignoresTrace_next fun _ _ => rfl)
  | runEdge => exact whenEnabled_ignoresTrace (fun _ _ => rfl) (ignoresTrace_next fun _ _ => rfl)
  | baroEdge => exact whenEnabled_ignoresTrace (fun _ _ => rfl) (raiseSource_ignoresTrace _ _)
  | firePsm => exact dispatch_ignoresTrace firePosition_ignoresTrace
  | fireRef => exact dispatch_ignoresTrace (ignoresTrace_next fun _ _ => rfl)
  | fireAdc => exact dispatch_ignoresTrace (ignoresTrace_next fun _ _ => rfl)
  | fireRun => exact dispatch_ignoresTrace toggleRun_ignoresTrace
  | fireBaro => exact dispatch_ignoresTrace (ignoresTrace_next fun _ _ => rfl)

/-- Exchanging the trace for itself shows that an event which completes leaves it. -/
theorem exec_next_trace {i : Instr} {s t : State} (h : exec i s = .next t) : t.trace = s.trace := by
  have hself : exec i s = .next (t.withTrace s.trace) := exec_ignoresTrace i s t s.trace h
  rw [h, Host.Outcome.next.injEq] at hself
  simpa using congrArg State.trace hself

/-- R22: no event changes the configuration. -/
theorem exec_next_cfg {i : Instr} {s t : State} (h : exec i s = .next t) : t.cfg = s.cfg := by
  cases i with
  | reset cal => obtain ⟨-, rfl⟩ := reset_next h; rfl
  | rotTick => obtain ⟨-, -, ⟨-, rfl⟩ | ⟨-, -, rfl⟩ | ⟨-, -, -, rfl⟩⟩ := rotTick_next h <;> rfl
  | pwmTick => obtain ⟨-, -, ⟨-, rfl⟩ | ⟨-, -, rfl⟩⟩ := pwmTick_next h <;> rfl
  | adcDone v => obtain ⟨-, -, -, rfl⟩ := adcDone_next h; rfl
  | runEdge => obtain ⟨-, -, rfl⟩ := runEdge_next h; rfl
  | baroEdge => obtain ⟨-, -, -, rfl⟩ := baroEdge_next h; rfl
  | firePsm => obtain ⟨-, -, -, e, n, -, -, rfl⟩ := firePsm_next h; rfl
  | fireRef => obtain ⟨-, -, -, -, rfl⟩ := fireRef_next h; rfl
  | fireAdc => obtain ⟨-, -, -, -, rfl⟩ := fireAdc_next h; rfl
  | fireRun => obtain ⟨-, -, -, -, ⟨-, rfl⟩ | ⟨-, rfl⟩⟩ := fireRun_next h <;> rfl
  | fireBaro => obtain ⟨-, -, -, -, rfl⟩ := fireBaro_next h; rfl

/-! ## A trace of words -/

/-- The step on a state that holds an event's word at the head of its trace. -/
theorem step_withTrace_encode_cons {s : State} (hv : ValidConfig s.cfg) (i : Instr) (ws : List EventWord) :
    step (s.withTrace (encode i :: ws)) = exec i (s.withTrace ws) :=
  stepRunsTheDecodedEvent (s.withTrace (encode i :: ws)) (encode i) ws i hv rfl (decode_encode i)

theorem core_run_succ_of_step {s s' : State} (h : step s = .next s') (k : Nat) :
    core.run (k + 1) s = core.run k s' := by
  simp only [Host.Core.run, show core.step s = .next s' from h]

/-- A run of events is a run of the machine on their words, put before the words the state holds (R5, R59). The first
word's step is its event, which ignores the words after it. -/
theorem core_run_of_runEvents {es : List Instr} {s t : State} (hv : ValidConfig s.cfg)
    (h : runEvents es s = .next t) :
    core.run es.length (s.withTrace (es.map encode ++ s.trace)) = .next t := by
  induction es generalizing s with
  | nil => exact h
  | cons i es ih =>
    obtain ⟨m, hm, hrun⟩ := (runEvents_cons_next_iff i es s t).1 h
    have hstep : step (s.withTrace (encode i :: (es.map encode ++ s.trace))) =
        .next (m.withTrace (es.map encode ++ m.trace)) := by
      rw [step_withTrace_encode_cons hv, exec_next_trace hm]
      exact exec_ignoresTrace i s m _ hm
    have hvm : ValidConfig m.cfg := by rwa [exec_next_cfg hm]
    exact (core_run_succ_of_step hstep es.length).trans (ih hvm hrun)

/-- Settles O10: the statement's run starts at s with the later words as its trace. -/
theorem traceOfWordsRunsItsEvents : Obligations.TraceOfWordsRunsItsEvents :=
  fun _ rest s _ hv h => core_run_of_runEvents (s := s.withTrace rest) hv h

end Machine

end Sys2Proof
end

section
/-! PROOFS. Spec 10_state: the invariant of R43 (every step keeps it, every reached state has it) and the writers of
each element of the state (R47). -/

namespace Sys2Proof.Machine

/-! ## The values the operations compute stay in R43's ranges -/

theorem ValidConfig.passes {c : Config} (hv : ValidConfig c) (k : ConfigCheck) : c.passes k = true :=
  c.failedCheck_eq_none_iff.1 hv k

theorem nextPos_lt (p : PosNo) : (nextPos p).toNat < rotLen := by
  rw [nextPos_toNat]
  exact Nat.mod_lt _ (by decide)

theorem nextRotCnt_lt (s : State) : nextRotCnt s < 2 ^ s.cfg.cmpW :=
  Nat.mod_lt _ (Nat.two_pow_pos _)

theorem debNext_le (d : Nat) : debNext d ≤ d := by
  unfold debNext
  split <;> omega

/-- A table read that succeeds gives an entry of the table, so the checks on all entries hold of it. -/
theorem mem_rotTable_of_memRead {s : State} {p : PosNo} {e : EntryWord} (h : s.memRead p = some e) :
    e ∈ s.cfg.rotTable :=
  List.mem_of_getElem? h

/-- R87: cfg_delta_nonzero makes both factors of the product positive. -/
theorem nextDelay_pos {c : Config} (hv : ValidConfig c) (rpm : Sample) {e : EntryWord} (he : e ∈ c.rotTable) :
    1 ≤ nextDelay c rpm (entryDelta e) := by
  obtain ⟨hdelta, hbase⟩ := c.passes_deltaNonzero_iff.1 (hv.passes .deltaNonzero)
  exact Nat.mul_pos (Nat.add_pos_left hbase _) (hdelta e he)

/-- R87: cfg_cmp_fits bounds the product at the largest sample. -/
theorem nextDelay_le {c : Config} (hv : ValidConfig c) (rpm : Sample) {e : EntryWord} (he : e ∈ c.rotTable) :
    nextDelay c rpm (entryDelta e) ≤ 2 ^ c.cmpW - 1 := by
  obtain ⟨hfits, -⟩ := c.passes_cmpFits_iff.1 (hv.passes .cmpFits)
  have hrpm : rpm.toNat ≤ 255 := Nat.le_of_lt_succ rpm.isLt
  calc nextDelay c rpm (entryDelta e)
      ≤ (c.baseMin + 255) * entryDelta e := Nat.mul_le_mul_right _ (Nat.add_le_add_left hrpm _)
    _ ≤ 2 ^ c.cmpW - 1 := hfits e he

/-- R94: the divider counts down to 1 and is then reloaded with at least VSS_BASE. -/
theorem vssNext_pos {c : Config} (hbase : 1 ≤ c.vssBase) {div : Nat} (hdiv : 1 ≤ div) (pin : Bool) (v : Sample) :
    1 ≤ (vssNext c div pin v).1 := by
  match div with
  | 1 => exact Nat.le_add_right_of_le hbase
  | d + 2 => exact Nat.le_add_left 1 d

/-- R94: the divider shrinks or is reloaded with at most VSS_BASE and the largest sample. -/
theorem vssNext_le (c : Config) {div : Nat} (hdiv : 1 ≤ div) (pin : Bool) (v : Sample) :
    (vssNext c div pin v).1 ≤ max div (c.vssBase + 255) := by
  match div with
  | 1 => exact le_max_of_le_right (Nat.add_le_add_left (Nat.le_of_lt_succ v.isLt) _)
  | d + 2 => exact le_max_of_le_left (Nat.le_succ (d + 1))

/-! ## Each event that writes an element of R43 keeps the relations -/

/-- R137: the checks of R8 on the initial values are R43's bounds. -/
theorem powerOnReset_consistent (cal : CalSel) {s : State} (hv : ValidConfig s.cfg) :
    Consistent (powerOnReset cal s) := by
  obtain ⟨-, hcmp⟩ := s.cfg.passes_cmpFits_iff.1 (hv.passes .cmpFits)
  obtain ⟨-, -, hvss⟩ := s.cfg.passes_vss_iff.1 (hv.passes .vss)
  obtain ⟨hcmpW, hvssW⟩ := s.cfg.passes_widths_iff.1 (hv.passes .widths)
  exact {
    posIdx_lt := by simp [powerOnReset, rotLen]
    mux_eq := rfl
    one_conversion := rfl
    vssDiv_pos := hvss
    vssDiv_le := le_max_left _ _
    vssDiv_lt := hvssW
    rotCmp_pos := hcmp
    rotCmp_le := Nat.le_sub_one_of_lt hcmpW
    rotCnt_lt := Nat.two_pow_pos _
    deb_le := Nat.zero_le _ }

theorem rotTick_keeps_consistent {s t : State} (hc : Consistent s) (h : exec .rotTick s = .next t) :
    Consistent t := by
  obtain ⟨-, -, ⟨-, rfl⟩ | ⟨-, -, rfl⟩ | ⟨-, -, -, rfl⟩⟩ := rotTick_next h
  · exact hc
  · exact { hc with rotCnt_lt := nextRotCnt_lt s }
  · exact { hc with rotCnt_lt := Nat.two_pow_pos _ }

theorem firePsm_keeps_consistent {s t : State} (hv : ValidConfig s.cfg) (hc : Consistent s)
    (h : exec .firePsm s = .next t) : Consistent t := by
  obtain ⟨-, -, -, e, n, -, hn, rfl⟩ := firePsm_next h
  have hmem : n ∈ s.cfg.rotTable := mem_rotTable_of_memRead hn
  exact { hc with
    posIdx_lt := nextPos_lt s.posIdx
    rotCmp_pos := nextDelay_pos hv _ hmem
    rotCmp_le := nextDelay_le hv _ hmem }

/-- The reload of the divider fits both of its bounds by cfg_vss. -/
theorem fireRef_keeps_consistent {s t : State} (hv : ValidConfig s.cfg) (hc : Consistent s)
    (h : exec .fireRef s = .next t) : Consistent t := by
  obtain ⟨-, -, -, -, rfl⟩ := fireRef_next h
  obtain ⟨hbase, hfits, -⟩ := s.cfg.passes_vss_iff.1 (hv.passes .vss)
  have hle := vssNext_le s.cfg hc.vssDiv_pos s.vssPin (s.chRead chVss)
  have hreload : s.cfg.vssBase + 255 < 2 ^ s.cfg.vssW := by
    have := Nat.two_pow_pos s.cfg.vssW
    omega
  exact { hc with
    vssDiv_pos := vssNext_pos hbase hc.vssDiv_pos _ _
    vssDiv_le := hle.trans (max_le hc.vssDiv_le (le_max_right _ _))
    vssDiv_lt := hle.trans_lt (max_lt hc.vssDiv_lt hreload)
    deb_le := (debNext_le s.deb).trans hc.deb_le }

theorem fireRun_keeps_consistent {s t : State} (hc : Consistent s) (h : exec .fireRun s = .next t) :
    Consistent t := by
  obtain ⟨-, -, -, -, ⟨-, rfl⟩ | ⟨-, rfl⟩⟩ := fireRun_next h
  · exact { hc with deb_le := le_rfl }
  · exact { hc with }

/-- Every event that completes leaves the relations of R43: RESET sets them up, and the others keep them. The four
events whose own proof is above write a bounded element; the converter's two hand the one conversion over; the rest
write nothing R43 speaks of. -/
theorem exec_next_consistent {i : Instr} {s t : State} (hs : MachineInv s) (h : exec i s = .next t) :
    Consistent t := by
  obtain ⟨hv, hc⟩ := hs
  cases i with
  | reset cal => obtain ⟨-, rfl⟩ := reset_next h; exact powerOnReset_consistent cal hv
  | rotTick => exact rotTick_keeps_consistent (hc (rotTick_next h).1) h
  | pwmTick => obtain ⟨hb, -, ⟨-, rfl⟩ | ⟨-, -, rfl⟩⟩ := pwmTick_next h <;> exact { hc hb with }
  | adcDone v => obtain ⟨hb, -, -, rfl⟩ := adcDone_next h; exact { hc hb with one_conversion := rfl }
  | runEdge => obtain ⟨hb, -, rfl⟩ := runEdge_next h; exact { hc hb with }
  | baroEdge => obtain ⟨hb, -, -, rfl⟩ := baroEdge_next h; exact { hc hb with }
  | firePsm => exact firePsm_keeps_consistent hv (hc (firePsm_next h).1) h
  | fireRef => exact fireRef_keeps_consistent hv (hc (fireRef_next h).1) h
  | fireAdc =>
    obtain ⟨hb, -, -, -, rfl⟩ := fireAdc_next h
    exact { hc hb with mux_eq := rfl, one_conversion := rfl }
  | fireRun => exact fireRun_keeps_consistent (hc (fireRun_next h).1) h
  | fireBaro => obtain ⟨hb, -, -, -, rfl⟩ := fireBaro_next h; exact { hc hb with }

theorem exec_keeps_machineInv {i : Instr} {s t : State} (hs : MachineInv s) (h : exec i s = .next t) :
    MachineInv t where
  valid := by rw [exec_next_cfg h]; exact hs.valid
  consistent _ := exec_next_consistent hs h

/-! ## One step -/

/-- What a step that completes can do (R12, R134): stay with no word left, or run the event of the next word. -/
theorem step_next {s t : State} (h : step s = .next t) :
    ValidConfig s.cfg ∧
      ((s.trace = [] ∧ t = s) ∨
       ∃ w rest i, s.trace = w :: rest ∧ decode w = .ok i ∧ exec i s.popEvent = .next t) := by
  cases hv : s.cfg.failedCheck with
  | some k => simp [step_of_failedCheck hv] at h
  | none =>
    refine ⟨hv, ?_⟩
    cases htr : s.trace with
    | nil =>
      simp only [step, configRefusal, hv, htr, Option.map_none, idle, Host.Outcome.next.injEq] at h
      exact .inl ⟨rfl, h.symm⟩
    | cons w rest =>
      rw [step_of_trace_cons hv htr] at h
      cases hd : decode w with
      | error r => simp [takeEvent, hd] at h
      | ok i => exact .inr ⟨w, rest, i, rfl, hd, by rwa [takeEvent_of_decode_ok hd] at h⟩

theorem popEvent_machineInv {s : State} (hs : MachineInv s) : MachineInv s.popEvent where
  valid := hs.valid
  consistent hb := { hs.consistent hb with }

/-- Settles O50: the idle step stays, and any other is an event on the rest of the trace. -/
theorem everyStepKeepsTheInvariant : Obligations.EveryStepKeepsTheInvariant := by
  intro s t hs h
  obtain ⟨-, ⟨-, rfl⟩ | ⟨w, rest, i, -, -, hexec⟩⟩ := step_next h
  · exact ⟨hs, rfl⟩
  · exact ⟨exec_keeps_machineInv (popEvent_machineInv hs) hexec, (exec_next_cfg hexec).trans (popEvent_cfg s)⟩

/-! ## The writers of each element -/

/-- Settles O44: after RESET no RESET completes, and each other event's law names the elements it writes. -/
theorem eachElementHasItsWriters : Obligations.EachElementHasItsWriters := by
  intro i s t hb h
  cases i with
  | reset cal => simp [(reset_next h).1] at hb
  | rotTick => obtain ⟨-, -, ⟨-, rfl⟩ | ⟨-, -, rfl⟩ | ⟨-, -, -, rfl⟩⟩ := rotTick_next h <;> simp
  | pwmTick => obtain ⟨-, -, ⟨-, rfl⟩ | ⟨-, -, rfl⟩⟩ := pwmTick_next h <;> simp
  | adcDone v => obtain ⟨-, -, -, rfl⟩ := adcDone_next h; simp
  | runEdge => obtain ⟨-, -, rfl⟩ := runEdge_next h; simp
  | baroEdge => obtain ⟨-, -, -, rfl⟩ := baroEdge_next h; simp
  | firePsm => obtain ⟨-, -, -, e, n, -, -, rfl⟩ := firePsm_next h; simp
  | fireRef => obtain ⟨-, -, -, -, rfl⟩ := fireRef_next h; simp
  | fireAdc => obtain ⟨-, -, -, -, rfl⟩ := fireAdc_next h; simp
  | fireRun => obtain ⟨-, -, -, -, ⟨-, rfl⟩ | ⟨-, rfl⟩⟩ := fireRun_next h <;> simp
  | fireBaro => obtain ⟨-, -, -, -, rfl⟩ := fireBaro_next h; simp

/-- R47: after RESET an event that completes records no fault and undoes no RESET. -/
theorem exec_next_live {i : Instr} {s t : State} (hs : Live s) (h : exec i s = .next t) : Live t := by
  obtain ⟨hb, hf⟩ := hs
  obtain ⟨-, -, -, -, -, -, -, -, -, -, -, hfault, -, -, hbooted⟩ := eachElementHasItsWriters i s t hb h
  exact ⟨hbooted.trans hb, hfault.trans hf⟩

/-! ## Reached states -/

/-- Every reached state meets the step's invariant and is live: the state before RESET meets it with no relation to
show. -/
theorem Reached.machineInv_live {s : State} (h : Reached s) : MachineInv s ∧ Live s := by
  induction h with
  | reset cal s t hv hreset =>
    obtain ⟨hb, rfl⟩ := reset_next hreset
    have hs : MachineInv s := ⟨hv, fun hboot => by simp [hb] at hboot⟩
    exact ⟨exec_keeps_machineInv hs hreset, rfl, rfl⟩
  | event i s t _ hexec ih =>
    obtain ⟨hs, hlive⟩ := ih
    exact ⟨exec_keeps_machineInv hs hexec, exec_next_live hlive hexec⟩

/-- Settles O51: a live state has had its RESET, so the invariant gives R43. -/
theorem reachedStatesAreConsistent : Obligations.ReachedStatesAreConsistent := by
  intro s h
  obtain ⟨⟨hv, hc⟩, hb, hf⟩ := h.machineInv_live
  exact ⟨hc hb, hf, hv⟩

/-- State.reset is what RESET LOW leaves under TC1 (log 2). -/
theorem reached_stateReset : Reached State.reset :=
  .reset .low { State.reset with booted := false } State.reset (by decide) rfl

/-- Settles O52: State.reset is a reached state. -/
theorem stateResetMeetsTheInvariant : Obligations.StateResetMeetsTheInvariant :=
  reached_stateReset.machineInv_live

end Sys2Proof.Machine
end

section
/-! PROOFS. Spec 20_memory: the rotation table read inside and outside the table (R51). -/

namespace Sys2Proof.Machine

/-- R51: under a valid configuration a table read gives an entry exactly at an index of the table. -/
theorem memRead_isSome_iff {s : State} (hv : ValidConfig s.cfg) (i : PosNo) :
    (s.memRead i).isSome ↔ i.toNat < 20 := by
  have hlen : s.cfg.rotTable.length = 20 := s.cfg.passes_tableLen_iff.1 (hv.passes .tableLen)
  rw [State.memRead, isSome_getElem?, hlen]

/-- R52: a read of the table does not depend on the pending bits. -/
@[simp] theorem memRead_setPending (s : State) (src : Source) (b : Bool) (i : PosNo) :
    (s.setPending src b).memRead i = s.memRead i := by
  simp [State.memRead]

/-- A dispatch that the priority rule lets through runs its operation with the pending bit cleared. -/
theorem dispatch_of_enabled {src : Source} {s : State} (op : State → Result) (hs : Live s)
    (hm : mayDispatch src s = true) : dispatch src op s = op (s.setPending src false) :=
  whenEnabled_of_enabled _ _ s hs.1 hs.2 hm

/-- R51: the operation of FIRE_PSM refuses an index at which the table has no entry. -/
theorem firePosition_of_memRead_none {s : State} (h : s.memRead s.posIdx = none) :
    firePosition s = .refused .badIndex := by
  simp only [firePosition, h]

/-- R127: in a live state with PEND_PSM set, FIRE_PSM is its operation with the bit cleared. -/
theorem exec_firePsm_of_pending {s : State} (hs : Live s) (hp : s.pendPsm = true) :
    exec .firePsm s = firePosition (s.setPending .psm false) :=
  dispatch_of_enabled firePosition hs ((mayDispatch_iff .psm s).2 ⟨hp, .inl rfl⟩)

/-- Settles O23: the table's length decides both the read and, through the operation's read, the refusal. -/
theorem tableReadsInRangeAndRefusedOutside : Obligations.TableReadsInRangeAndRefusedOutside := by
  intro s hv
  refine ⟨fun i hi => ⟨rfl, (memRead_isSome_iff hv i).2 hi⟩, fun hs hp hout => ?_⟩
  have hnone : s.memRead s.posIdx = none := by
    rw [← Option.not_isSome_iff_eq_none, memRead_isSome_iff hv]
    exact Nat.not_lt.2 hout
  rw [exec_firePsm_of_pending hs hp, firePosition_of_memRead_none (by simpa using hnone)]

end Sys2Proof.Machine
end

section
/-! PROOFS. Spec 30_encoding: the decoder's outcome on every event word (R66 to R68, R73, R74), the words of the events
(R67, R76), the fields of an entry word (R69) and the idle block (R75). -/

namespace Sys2Proof

/-! ## The fields of a word -/

theorem evCode_toNat (w : EventWord) : (evCode w).toNat = w.toNat / 4096 := by
  simp only [evCode, BitVec.extractLsb'_toNat, Nat.shiftRight_eq_div_pow]
  omega

theorem evRsv_toNat (w : EventWord) : (evRsv w).toNat = w.toNat / 256 % 16 := by
  simp [evRsv, Nat.shiftRight_eq_div_pow]

theorem evOpnd_toNat (w : EventWord) : (evOpnd w).toNat = w.toNat % 256 := by
  simp [evOpnd]

theorem evRsv_eq_zero_iff (w : EventWord) : evRsv w = 0 ↔ w.toNat / 256 % 16 = 0 := by
  rw [← evRsv_toNat, BitVec.toNat_eq, BitVec.ofNat_eq_ofNat, BitVec.toNat_zero]

theorem evOpnd_eq_zero_iff (w : EventWord) : evOpnd w = 0 ↔ w.toNat % 256 = 0 := by
  rw [← evOpnd_toNat, BitVec.toNat_eq, BitVec.ofNat_eq_ofNat, BitVec.toNat_zero]

/-- R68: bits 7..1 of RESET's operand are 0 exactly when the operand is a selector value. -/
theorem evOpnd_upper_eq_zero_iff (w : EventWord) : (evOpnd w).extractLsb' 1 7 = 0 ↔ w.toNat % 256 < 2 := by
  rw [← evOpnd_toNat, BitVec.toNat_eq, BitVec.extractLsb'_toNat, Nat.shiftRight_eq_div_pow, BitVec.ofNat_eq_ofNat,
    BitVec.toNat_zero]
  omega

/-- R68, R72: such an operand is that of the selector value in bit 0. -/
theorem evOpnd_eq_operandOf_reset {w : EventWord} (h : w.toNat % 256 < 2) :
    evOpnd w = operandOf (.reset (calOfBit (w.getLsbD 0))) := by
  have hbit : w.getLsbD 0 = (evOpnd w).getLsbD 0 := by simp [evOpnd]
  rw [← evOpnd_toNat] at h
  rw [hbit]
  obtain h | h : evOpnd w = 0#8 ∨ evOpnd w = 1#8 := by bv_omega
  all_goals rw [h]; rfl

/-- R66: the three fields are the whole word. -/
theorem evCode_append_evRsv_append_evOpnd (w : EventWord) : evCode w ++ evRsv w ++ evOpnd w = w := by
  rw [evCode, evRsv, BitVec.extractLsb'_append_extractLsb'_eq_extractLsb' (start₁ := 8) (len₁ := 4) rfl]
  exact (BitVec.extractLsb'_append_extractLsb'_eq_extractLsb' rfl).trans BitVec.extractLsb'_eq_self

/-- R66: a word with an event's fields is the event's word. -/
theorem encode_eq_of_fields {w : EventWord} {i : Instr} (hcode : evCode w = codeOf i) (hrsv : evRsv w = 0)
    (hopnd : evOpnd w = operandOf i) : encode i = w := by
  calc encode i = evCode w ++ evRsv w ++ evOpnd w := by rw [hcode, hrsv, hopnd]; rfl
    _ = w := evCode_append_evRsv_append_evOpnd w

theorem entryDelta_eq_mod (e : EntryWord) : entryDelta e = e.toNat % 65536 := by
  simp [entryDelta]

theorem entryMask_toNat (e : EntryWord) : (entryMask e).toNat = e.toNat / 65536 := by
  simp only [entryMask, BitVec.extractLsb'_toNat, Nat.shiftRight_eq_div_pow]
  omega

/-! ## What the decoder does with a word -/

/-- R73: the word's code is reserved. -/
def HasReservedCode (w : EventWord) : Prop :=
  w.toNat / 4096 = 6 ∨ w.toNat / 4096 = 7 ∨ 13 ≤ w.toNat / 4096

/-- R74: `rsv` is not 0, or an operand bit that R68 requires to be 0 is not. -/
def HasReservedBits (w : EventWord) : Prop :=
  w.toNat / 256 % 16 ≠ 0 ∨ (w.toNat / 4096 = 0 ∧ 2 ≤ w.toNat % 256) ∨
    (w.toNat / 4096 ≠ 0 ∧ w.toNat / 4096 ≠ 3 ∧ w.toNat % 256 ≠ 0)

/-- R67: the code map has no reserved code. -/
theorem not_hasReservedCode_of_evCode {w : EventWord} {i : Instr} (h : evCode w = codeOf i) :
    ¬ HasReservedCode w := by
  have hcodes : ¬ ((codeOf i).toNat = 6 ∨ (codeOf i).toNat = 7 ∨ 13 ≤ (codeOf i).toNat) := by
    cases i <;> simp [codeOf]
  rwa [← h, evCode_toNat] at hcodes

/-- R67, R68: an event whose code is neither RESET's nor ADC_DONE's has no operand. -/
theorem operandOf_eq_zero {i : Instr} (hreset : codeOf i ≠ 0) (hadc : codeOf i ≠ 3) : operandOf i = 0 := by
  cases i with
  | reset cal => exact absurd rfl hreset
  | adcDone v => exact absurd rfl hadc
  | rotTick | pwmTick | runEdge | baroEdge | firePsm | fireRef | fireAdc | fireRun | fireBaro => rfl

/-- R74: what the decoder may answer for a word. An event comes only with its own word. -/
inductive WordOutcome (w : EventWord) : Except DecodeRefusal Instr → Prop
  | reservedCode (hcode : HasReservedCode w) : WordOutcome w (.error .reservedCode)
  | reservedBits (hcode : ¬ HasReservedCode w) (hbits : HasReservedBits w) : WordOutcome w (.error .reservedBits)
  | event (i : Instr) (hcode : ¬ HasReservedCode w) (hbits : ¬ HasReservedBits w) (hword : encode i = w) :
      WordOutcome w (.ok i)

/-- R74: the three answers exclude each other, so each comes exactly under its own condition. -/
theorem WordOutcome.condition_iff {w : EventWord} {r : Except DecodeRefusal Instr} (h : WordOutcome w r) :
    (r = .error .reservedCode ↔ HasReservedCode w) ∧
    (r = .error .reservedBits ↔ ¬ HasReservedCode w ∧ HasReservedBits w) ∧
    ((∃ i, r = .ok i) ↔ ¬ HasReservedCode w ∧ ¬ HasReservedBits w) := by
  cases h with
  | reservedCode hcode => simp [hcode]
  | reservedBits hcode hbits => simp [hcode, hbits]
  | event i hcode hbits hword => simp [hcode, hbits]

/-- A decoder of one code's words that checks the bits R68 requires to be 0, and then reads the operand. -/
theorem WordOutcome.of_check {w : EventWord} {i : Instr} {zeros : Prop} [Decidable zeros]
    (hcode : evCode w = codeOf i) (hzeros : zeros ↔ ¬ HasReservedBits w)
    (hfields : zeros → evRsv w = 0 ∧ evOpnd w = operandOf i) :
    WordOutcome w (if zeros then .ok i else .error .reservedBits) := by
  have hlegal := not_hasReservedCode_of_evCode hcode
  split
  case isTrue h =>
    obtain ⟨hrsv, hopnd⟩ := hfields h
    exact .event i hlegal (hzeros.1 h) (encode_eq_of_fields hcode hrsv hopnd)
  case isFalse h => exact .reservedBits hlegal (not_not.1 (mt hzeros.2 h))

/-- R68: RESET's operand has bit 0 free. -/
theorem decodeReset_outcome {w : EventWord} (hcode : evCode w = 0) : WordOutcome w (decodeReset w) := by
  have hnum : w.toNat / 4096 = 0 := by rw [← evCode_toNat, hcode]; rfl
  refine .of_check hcode ?_ fun ⟨hrsv, hupper⟩ =>
    ⟨hrsv, evOpnd_eq_operandOf_reset ((evOpnd_upper_eq_zero_iff w).1 hupper)⟩
  rw [evRsv_eq_zero_iff, evOpnd_upper_eq_zero_iff, HasReservedBits]
  omega

/-- R68: ADC_DONE's operand is free. -/
theorem decodeAdcDone_outcome {w : EventWord} (hcode : evCode w = 3) : WordOutcome w (decodeAdcDone w) := by
  have hnum : w.toNat / 4096 = 3 := by rw [← evCode_toNat, hcode]; rfl
  refine .of_check hcode ?_ fun hrsv => ⟨hrsv, rfl⟩
  rw [evRsv_eq_zero_iff, HasReservedBits]
  omega

/-- R68: every other event's operand is 0. -/
theorem decodePlain_outcome {w : EventWord} {i : Instr} (hcode : evCode w = codeOf i) (hreset : codeOf i ≠ 0)
    (hadc : codeOf i ≠ 3) : WordOutcome w (decodePlain w i) := by
  refine .of_check hcode ?_ fun ⟨hrsv, hopnd⟩ => ⟨hrsv, hopnd.trans (operandOf_eq_zero hreset hadc).symm⟩
  have hnum : w.toNat / 4096 ≠ 0 ∧ w.toNat / 4096 ≠ 3 := by
    rw [← evCode_toNat, hcode]
    bv_omega
  rw [evRsv_eq_zero_iff, evOpnd_eq_zero_iff, HasReservedBits]
  omega

/-- R67, R73: the decoder on any word, code by code. A code that is none of the eleven is one of the five reserved. -/
theorem decode_outcome (w : EventWord) : WordOutcome w (decode w) := by
  unfold decode
  split
  case h_1 hcode => exact decodeReset_outcome hcode
  case h_4 hcode => exact decodeAdcDone_outcome hcode
  case h_12 =>
    refine .reservedCode ?_
    simp only [imp_false] at *
    rw [HasReservedCode, ← evCode_toNat]
    bv_omega
  all_goals exact decodePlain_outcome ‹_› (by decide) (by decide)

/-! ## The statements about the encoding -/

/-- Settles O1: the decoder on the word of each event. -/
theorem decodeOfEncodeIsTheEvent : Obligations.DecodeOfEncodeIsTheEvent := decode_encode

/-- Settles O2: the decoder answers an event only for its own word. -/
theorem everyDecodedWordIsTheEventsWord : Obligations.EveryDecodedWordIsTheEventsWord := by
  intro w i hd
  have hout : WordOutcome w (.ok i) := hd ▸ decode_outcome w
  cases hout with
  | event _ _ _ hword => exact hword

/-- Settles O3: on every word the decoder's answer comes with its condition. -/
theorem decoderRefusesExactlyReservedWords : Obligations.DecoderRefusesExactlyReservedWords :=
  fun w => (decode_outcome w).condition_iff

/-- Settles O4: each listed word is the word of its mnemonic's event. -/
theorem listedWordsDecodeToTheirMnemonics : Obligations.ListedWordsDecodeToTheirMnemonics :=
  ⟨decode_encode (.reset .low), decode_encode (.reset .high), decode_encode .rotTick, decode_encode .pwmTick,
    decode_encode (.adcDone 0x7F), decode_encode (.adcDone 255), decode_encode .runEdge, decode_encode .baroEdge,
    decode_encode .firePsm, decode_encode .fireRef, decode_encode .fireAdc, decode_encode .fireRun,
    decode_encode .fireBaro⟩

/-- Settles O5: the quotient and remainder of the number by 2^16 are its two fields. -/
theorem entryWordFieldsAreDeltaAndMask : Obligations.EntryWordFieldsAreDeltaAndMask :=
  fun e => ⟨entryDelta_eq_mod e, entryMask_toNat e⟩

namespace Machine

/-- R12, R134: under a valid configuration the step with no word left is the idle step. -/
theorem step_of_trace_nil {s : State} (hv : ValidConfig s.cfg) (ht : s.trace = []) : step s = idle s := by
  simp [step, configRefusal, hv, ht]

/-- Settles O9: the idle step answers the state it is given. -/
theorem idleBlockKeepsItsState : Obligations.IdleBlockKeepsItsState :=
  fun _ hv ht => step_of_trace_nil hv ht

end Machine

end Sys2Proof
end

section
/-! PROOFS. Spec 40_position: one firing of FIRE_PSM (R85 to R87, R89), POS_IDX over any run (R85, R88), and a cycle of
20 firings, whose period and pin parity do not depend on where it starts (R88). -/

namespace Sys2Proof

/-! ## The table read in a cycle -/

/-- The entry of the table, taken as a cycle, that the k-th firing from index 0 selects (R85). -/
def tableEntry (c : Config) (k : Nat) : EntryWord := c.rotTable.getD (k % rotLen) 0

/-- The entries n consecutive firings select, the first at index p mod 20. -/
def entriesFrom (c : Config) (p n : Nat) : List EntryWord := (List.range' p n).map (tableEntry c)

theorem entriesFrom_succ (c : Config) (p n : Nat) :
    entriesFrom c p (n + 1) = tableEntry c p :: entriesFrom c (p + 1) n := by
  simp [entriesFrom, List.range'_succ]

namespace Machine

/-- R8 (cfg_table_len): every index modulo 20 has its entry. -/
theorem getElem?_rotTable_mod {c : Config} (hv : ValidConfig c) (k : Nat) :
    c.rotTable[k % 20]? = some (tableEntry c k) := by
  have hlen : c.rotTable.length = 20 := c.passes_tableLen_iff.1 (hv.passes .tableLen)
  have hk : k % 20 < c.rotTable.length := by rw [hlen]; exact Nat.mod_lt k (by decide)
  simp [tableEntry, rotLen, hk]

theorem tableEntry_mem {c : Config} (hv : ValidConfig c) (k : Nat) : tableEntry c k ∈ c.rotTable :=
  List.mem_of_getElem? (getElem?_rotTable_mod hv k)

/-- A cycle of 20 from any index is the table rotated, so it selects each entry as often as the table holds it. -/
theorem entriesFrom_perm_rotTable {c : Config} (hv : ValidConfig c) (p : Nat) :
    (entriesFrom c p 20).Perm c.rotTable := by
  have hlen : c.rotTable.length = 20 := c.passes_tableLen_iff.1 (hv.passes .tableLen)
  have hrotate : entriesFrom c p 20 = c.rotTable.rotate p := by
    refine List.ext_getElem (by simp [entriesFrom, hlen]) fun k _ hk => Option.some_injective _ ?_
    have hentry : (entriesFrom c p 20)[k] = tableEntry c (k + p) := by simp [entriesFrom, Nat.add_comm]
    rw [hentry, ← List.getElem?_eq_getElem, List.getElem?_rotate (by simpa using hk), hlen, getElem?_rotTable_mod hv]
  rw [hrotate]
  exact c.rotTable.rotate_perm p

/-! ## One firing -/

/-- What FIRE_PSM makes of a state when e is the entry at POS_IDX and n the next one (R85). -/
def State.fired (s : State) (e n : EntryWord) : State :=
  { s with
    pendPsm := false
    hepA := if entryMask e = 0b01#2 then !s.hepA else s.hepA
    hepB := if entryMask e = 0b10#2 then !s.hepB else s.hepB
    posIdx := nextPos s.posIdx
    rotCmp := nextDelay s.cfg (s.chRead chRpm) (entryDelta n) }

@[simp] theorem fired_rotCmp (s : State) (e n : EntryWord) :
    (s.fired e n).rotCmp = nextDelay s.cfg (s.chRead chRpm) (entryDelta n) := rfl
@[simp] theorem fired_hepA (s : State) (e n : EntryWord) :
    (s.fired e n).hepA = if entryMask e = 0b01#2 then !s.hepA else s.hepA := rfl
@[simp] theorem fired_hepB (s : State) (e n : EntryWord) :
    (s.fired e n).hepB = if entryMask e = 0b10#2 then !s.hepB else s.hepB := rfl

/-- R51, R85: the operation of FIRE_PSM completes when both its table reads do, since the toggle moves neither. -/
theorem firePosition_completes {s : State} {e n : EntryWord} (he : s.memRead s.posIdx = some e)
    (hn : s.memRead (nextPos s.posIdx) = some n) :
    ∃ t, firePosition s = .next t := by
  have hn' : (hepToggle (entryMask e) s).memRead (nextPos (hepToggle (entryMask e) s).posIdx) = some n := by
    simpa [State.memRead] using hn
  exact ⟨_, (firePosition_of_memRead he).trans (advancePosition_of_memRead hn')⟩

theorem memRead_of_posIdx {s : State} (hv : ValidConfig s.cfg) {i : PosNo} {k : Nat} (hi : i.toNat = k % 20) :
    s.memRead i = some (tableEntry s.cfg k) := by
  rw [State.memRead, hi, getElem?_rotTable_mod hv]

theorem nextPos_toNat_of_mod {i : PosNo} {k : Nat} (hi : i.toNat = k % 20) :
    (nextPos i).toNat = (k + 1) % 20 := by
  rw [nextPos_toNat, hi, Nat.mod_add_mod]

/-- R85: a pending firing at a table index completes, with the entries there and at the next index. -/
theorem exec_firePsm_eq_fired {s : State} {p : Nat} (hs : Live s) (hp : s.pendPsm = true) (hv : ValidConfig s.cfg)
    (hpos : s.posIdx.toNat = p % 20) :
    exec .firePsm s = .next (s.fired (tableEntry s.cfg p) (tableEntry s.cfg (p + 1))) := by
  have he := memRead_of_posIdx hv hpos
  have hn := memRead_of_posIdx hv (nextPos_toNat_of_mod hpos)
  obtain ⟨t, ht⟩ : ∃ t, exec .firePsm s = .next t := by
    rw [exec_firePsm_of_pending hs hp]
    exact firePosition_completes (by simpa using he) (by simpa using hn)
  obtain ⟨-, -, -, e, n, he', hn', rfl⟩ := firePsm_next ht
  obtain rfl := Option.some_injective _ (he.symm.trans he')
  obtain rfl := Option.some_injective _ (hn.symm.trans hn')
  exact ht

/-- Settles O20: the refusal is the dispatch's (R127), and both entries come from reads inside the table. -/
theorem firePsmTogglesAdvancesAndReloads : Obligations.FirePsmTogglesAdvancesAndReloads := by
  refine ⟨by decide, fun s hb => ⟨fun h => ?_, fun hf hp hv hpos => ?_⟩⟩
  · exact dispatch_of_not_enabled .psm firePosition s hb fun ⟨hf, hp, _⟩ => h ⟨hf, hp⟩
  · have hmod : s.posIdx.toNat = s.posIdx.toNat % 20 := (Nat.mod_eq_of_lt hpos).symm
    exact ⟨_, _, memRead_of_posIdx hv hmod, getElem?_rotTable_mod hv (s.posIdx.toNat + 1),
      exec_firePsm_eq_fired ⟨hb, hf⟩ hp hv hmod⟩

/-- Settles O21: cfg_mask_onehot leaves the current entry two masks, and each inverts its own pin only. -/
theorem firePsmInvertsExactlyTheSelectedPin : Obligations.FirePsmInvertsExactlyTheSelectedPin := by
  intro s hs hp hv hpos
  have hmod : s.posIdx.toNat = s.posIdx.toNat % 20 := (Nat.mod_eq_of_lt hpos).symm
  refine ⟨_, _, memRead_of_posIdx hv hmod, exec_firePsm_eq_fired hs hp hv hmod, ?_⟩
  have honehot := s.cfg.passes_maskOnehot_iff.1 (hv.passes .maskOnehot)
  obtain hmask | hmask := honehot _ (tableEntry_mem hv s.posIdx.toNat)
  · exact .inl ⟨hmask, by simp [hmask], by simp [hmask]⟩
  · exact .inr ⟨hmask, by simp [hmask], by simp [hmask]⟩

/-- R87: with an RPM sample r written to channel 1, a firing's reload is the exact product with the next delta. -/
theorem fired_chWrite_rpm_rotCmp (s : State) (r : Sample) (e n : EntryWord) :
    ((s.chWrite chRpm r).fired e n).rotCmp = (s.cfg.baseMin + r.toNat) * entryDelta n := by
  rw [fired_rotCmp, chRead_chWrite, if_pos rfl]
  rfl

/-- Settles O22: the two firings differ in the sample only; cfg_delta_nonzero makes the product grow with it, and
cfg_cmp_fits bounds the product at the largest sample. -/
theorem compareReloadFitsAndIncreasesWithSample : Obligations.CompareReloadFitsAndIncreasesWithSample := by
  intro s r r' hs hp hv hpos hlt
  have hmod : s.posIdx.toNat = s.posIdx.toNat % 20 := (Nat.mod_eq_of_lt hpos).symm
  set e := tableEntry s.cfg s.posIdx.toNat
  set n := tableEntry s.cfg (s.posIdx.toNat + 1)
  have hfire (v : Sample) : exec .firePsm (s.chWrite chRpm v) = .next ((s.chWrite chRpm v).fired e n) :=
    exec_firePsm_eq_fired hs hp hv hmod
  have hcmp (v : Sample) := fired_chWrite_rpm_rotCmp s v e n
  obtain ⟨hdeltas, hbase⟩ := s.cfg.passes_deltaNonzero_iff.1 (hv.passes .deltaNonzero)
  obtain ⟨hfits, -⟩ := s.cfg.passes_cmpFits_iff.1 (hv.passes .cmpFits)
  have hmem : n ∈ s.cfg.rotTable := tableEntry_mem hv _
  have hdelta : 1 ≤ entryDelta n := hdeltas n hmem
  have hlow : s.cfg.baseMin * entryDelta n ≤ (s.cfg.baseMin + r.toNat) * entryDelta n :=
    Nat.mul_le_mul_right _ (Nat.le_add_right _ _)
  have hgrow : (s.cfg.baseMin + r.toNat) * entryDelta n < (s.cfg.baseMin + r'.toNat) * entryDelta n :=
    Nat.mul_lt_mul_of_pos_right (Nat.add_lt_add_left hlt _) hdelta
  have hhigh : (s.cfg.baseMin + r'.toNat) * entryDelta n ≤ (s.cfg.baseMin + 255) * entryDelta n :=
    Nat.mul_le_mul_right _ (Nat.add_le_add_left (Nat.le_of_lt_succ r'.isLt) _)
  exact ⟨n, _, _, getElem?_rotTable_mod hv _, hfire r, hfire r', hcmp r, hcmp r', Nat.mul_pos hbase hdelta,
    hlow.trans_eq (hcmp r).symm, (hcmp r).trans_lt (hgrow.trans_eq (hcmp r').symm), (hcmp r').trans_le hhigh,
    hfits n hmem⟩

/-! ## POS_IDX over any run -/

/-- R47, R85: after RESET one event advances POS_IDX by one modulo 20 if it is FIRE_PSM, and leaves it otherwise. -/
theorem exec_next_posIdx {i : Instr} {s t : State} (hb : s.booted = true) (hpos : s.posIdx.toNat < 20)
    (h : exec i s = .next t) : t.posIdx.toNat = (s.posIdx.toNat + [i].count .firePsm) % 20 := by
  by_cases hi : i = .firePsm
  · subst hi
    obtain ⟨-, -, -, e, n, -, -, rfl⟩ := firePsm_next h
    exact nextPos_toNat s.posIdx
  · obtain ⟨hkeep, -⟩ := eachElementHasItsWriters i s t hb h
    obtain ⟨hposIdx, -⟩ := hkeep hi
    simp [hposIdx, hi, Nat.mod_eq_of_lt hpos]

/-- R136: after RESET, an event that completes keeps RESET's mark. -/
theorem exec_next_booted {i : Instr} {s t : State} (hb : s.booted = true) (h : exec i s = .next t) :
    t.booted = true := by
  obtain ⟨-, -, -, -, -, -, -, -, -, -, -, -, -, -, hbooted⟩ := eachElementHasItsWriters i s t hb h
  exact hbooted.trans hb

/-- Settles O24, by induction on the events. -/
theorem positionCountsFiringsModTwenty : Obligations.PositionCountsFiringsModTwenty := by
  intro es
  induction es with
  | nil =>
    intro s t _ hpos h
    cases h
    exact (Nat.mod_eq_of_lt hpos).symm
  | cons i es ih =>
    intro s t hb hpos h
    obtain ⟨m, hi, hes⟩ := (runEvents_cons_next_iff i es s t).1 h
    have hm := exec_next_posIdx hb hpos hi
    calc t.posIdx.toNat
        = (m.posIdx.toNat + es.count .firePsm) % 20 :=
          ih m t (exec_next_booted hb hi) (hm ▸ Nat.mod_lt _ (by decide)) hes
      _ = (s.posIdx.toNat + [i].count .firePsm + es.count .firePsm) % 20 := by rw [hm, Nat.mod_add_mod]
      _ = (s.posIdx.toNat + (i :: es).count .firePsm) % 20 := by
          rw [Nat.add_assoc, ← List.count_append, List.singleton_append]

/-! ## Consecutive firings -/

/-- The level of a pin after firings that select these entries, each entry with the pin's mask inverting it (R86). -/
def pinAfter (mask : BitVec 2) (level : Bool) (es : List EntryWord) : Bool :=
  es.foldl (fun b e => if entryMask e = mask then !b else b) level

/-- R88: a pin is back at its level exactly when an even number of the entries select it. -/
theorem pinAfter_eq_iff (mask : BitVec 2) (es : List EntryWord) (level : Bool) :
    pinAfter mask level es = level ↔ (es.countP fun e => entryMask e = mask) % 2 = 0 := by
  induction es generalizing level with
  | nil => simp [pinAfter]
  | cons e es ih =>
    by_cases h : entryMask e = mask
    · have hstep : pinAfter mask level (e :: es) = pinAfter mask (!level) es := by simp [pinAfter, h]
      have hodd : pinAfter mask (!level) es = level ↔ ¬ (es.countP fun e => entryMask e = mask) % 2 = 0 := by
        rw [← ih (!level), Bool.eq_not, not_not]
      rw [hstep, hodd, List.countP_cons_of_pos (by simpa using h)]
      omega
    · have hstep : pinAfter mask level (e :: es) = pinAfter mask level es := by simp [pinAfter, h]
      rw [hstep, ih, List.countP_cons_of_neg (by simpa using h)]

/-- What n consecutive firings from index p mod 20 leave: the index, both pins, and the ROT_CMP values they wrote. -/
structure FiredFrom (s : State) (p n : Nat) (cmps : List Nat) (t : State) : Prop where
  /-- Each firing advances the index by one. -/
  posIdx : t.posIdx.toNat = (p + n) % 20
  /-- Each firing's entry with mask 0b01 inverts the first pin. -/
  hepA : t.hepA = pinAfter 0b01#2 s.hepA (entriesFrom s.cfg p n)
  /-- Each firing's entry with mask 0b10 inverts the second pin. -/
  hepB : t.hepB = pinAfter 0b10#2 s.hepB (entriesFrom s.cfg p n)
  /-- A firing's delta is the next entry's (R85). -/
  compares : cmps = (entriesFrom s.cfg (p + 1) n).map fun e => nextDelay s.cfg (s.chRead chRpm) (entryDelta e)

/-- A firing and the n after it: its reload comes first, and the others run from the state it leaves. -/
theorem firings_succ {s : State} {p : Nat} (n : Nat) (hs : Live s) (hv : ValidConfig s.cfg)
    (hpos : s.posIdx.toNat = p % 20) :
    firings (n + 1) s = (firings n (s.fired (tableEntry s.cfg p) (tableEntry s.cfg (p + 1)))).map fun r =>
      (nextDelay s.cfg (s.chRead chRpm) (entryDelta (tableEntry s.cfg (p + 1))) :: r.1, r.2) := by
  have hfire : exec .firePsm (s.setPending .psm true) =
      .next (s.fired (tableEntry s.cfg p) (tableEntry s.cfg (p + 1))) :=
    exec_firePsm_eq_fired (s := s.setPending .psm true) hs rfl hv hpos
  simp [firings, hfire]

/-- R88: from any index, consecutive firings all run, each on the entries its own index selects. -/
theorem firings_complete {s : State} {p : Nat} (n : Nat) (hs : Live s) (hv : ValidConfig s.cfg)
    (hpos : s.posIdx.toNat = p % 20) : ∃ cmps t, firings n s = some (cmps, t) ∧ FiredFrom s p n cmps t := by
  induction n generalizing s p with
  | zero => exact ⟨[], s, rfl, hpos, rfl, rfl, rfl⟩
  | succ n ih =>
    obtain ⟨cmps, t, hrun, hposIdx, hepA, hepB, rfl⟩ :=
      ih (s := s.fired (tableEntry s.cfg p) (tableEntry s.cfg (p + 1))) hs hv (nextPos_toNat_of_mod hpos)
    exact ⟨_, t, by rw [firings_succ n hs hv hpos, hrun]; rfl, {
      posIdx := by rw [hposIdx, Nat.add_right_comm, Nat.add_assoc]
      hepA := by rw [hepA, entriesFrom_succ]; rfl
      hepB := by rw [hepB, entriesFrom_succ]; rfl
      compares := by rw [entriesFrom_succ]; rfl }⟩

/-- The firings of one cycle from the state's own index. -/
theorem firings_cycle_complete {s : State} (hs : Live s) (hv : ValidConfig s.cfg) (hpos : s.posIdx.toNat < 20) :
    ∃ cmps t, firings 20 s = some (cmps, t) ∧ FiredFrom s s.posIdx.toNat 20 cmps t :=
  firings_complete 20 hs hv (Nat.mod_eq_of_lt hpos).symm

/-- Settles O25: the deltas of a cycle are those of the table in another order. -/
theorem cycleOfTwentyFiringsHasConstantPeriod : Obligations.CycleOfTwentyFiringsHasConstantPeriod := by
  intro s hs hv hpos
  obtain ⟨cmps, t, hrun, hcycle⟩ := firings_cycle_complete hs hv hpos
  refine ⟨cmps, t, hrun, BitVec.eq_of_toNat_eq ?_, ?_⟩
  · rw [hcycle.posIdx, Nat.add_mod_right, Nat.mod_eq_of_lt hpos]
  · rw [hcycle.compares, ((entriesFrom_perm_rotTable hv _).map _).sum_eq]
    exact List.sum_map_mul_left ..

/-- Settles O26: the entries of a cycle select a pin as often as the table's do. -/
theorem cycleOfTwentyFiringsTogglesPinsPerEntry : Obligations.CycleOfTwentyFiringsTogglesPinsPerEntry := by
  intro s hs hv hpos
  obtain ⟨cmps, t, hrun, hcycle⟩ := firings_cycle_complete hs hv hpos
  have hperm := entriesFrom_perm_rotTable hv s.posIdx.toNat
  refine ⟨cmps, t, hrun, ?_, ?_⟩
  · rw [hcycle.hepA, pinAfter_eq_iff, hperm.countP_eq]
  · rw [hcycle.hepB, pinAfter_eq_iff, hperm.countP_eq]

end Machine

end Sys2Proof
end

section
/-! PROOFS. Spec 41_refresh: one FIRE_REF (R90 to R94), its TPS duty (R91) and MAP duty (R92), and the speed divider
over any run (R94, R95). -/

namespace Sys2Proof.Machine

/-! ## The values a refresh computes -/

/-- R91, on numbers. -/
theorem tpsDuty_eq_ite (c : Config) (t : Sample) :
    tpsDuty c t = if t.toNat < c.tpsMin.toNat then c.tpsMin else if c.tpsMax.toNat < t.toNat then c.tpsMax else t := by
  simp only [tpsDuty, BitVec.lt_def]

theorem tpsDuty_of_lt_min {c : Config} {t : Sample} (h : t.toNat < c.tpsMin.toNat) : tpsDuty c t = c.tpsMin := by
  rw [tpsDuty_eq_ite, if_pos h]

/-- R91: with the bounds in order, a sample above the upper one is not below the lower one. -/
theorem tpsDuty_of_max_lt {c : Config} {t : Sample} (horder : c.tpsMin.toNat ≤ c.tpsMax.toNat)
    (h : c.tpsMax.toNat < t.toNat) : tpsDuty c t = c.tpsMax := by
  rw [tpsDuty_eq_ite, if_neg (by omega), if_pos h]

theorem tpsDuty_of_between {c : Config} {t : Sample} (hmin : c.tpsMin.toNat ≤ t.toNat)
    (hmax : t.toNat ≤ c.tpsMax.toNat) : tpsDuty c t = t := by
  rw [tpsDuty_eq_ite, if_neg (by omega), if_neg (by omega)]

theorem tpsDuty_mem_bounds {c : Config} (t : Sample) (horder : c.tpsMin.toNat ≤ c.tpsMax.toNat) :
    c.tpsMin.toNat ≤ (tpsDuty c t).toNat ∧ (tpsDuty c t).toNat ≤ c.tpsMax.toNat := by
  by_cases hlow : t.toNat < c.tpsMin.toNat
  · rw [tpsDuty_of_lt_min hlow]
    exact ⟨le_rfl, horder⟩
  by_cases hhigh : c.tpsMax.toNat < t.toNat
  · rw [tpsDuty_of_max_lt horder hhigh]
    exact ⟨horder, le_rfl⟩
  · rw [tpsDuty_of_between (not_lt.1 hlow) (not_lt.1 hhigh)]
    exact ⟨not_lt.1 hlow, not_lt.1 hhigh⟩

/-- R94: the pulse comes when the count reaches zero. -/
theorem vssNext_one (c : Config) (pin : Bool) (v : Sample) : vssNext c 1 pin v = (c.vssBase + v.toNat, !pin) := rfl

/-- R94: before that the divider only counts. -/
theorem vssNext_of_two_le (c : Config) {div : Nat} (h : 2 ≤ div) (pin : Bool) (v : Sample) :
    vssNext c div pin v = (div - 1, pin) := by
  match div with
  | d + 2 => rfl

/-! ## One refresh -/

/-- What FIRE_REF makes of a state (R90). -/
def State.refreshed (s : State) : State :=
  { s with
    pendRef := false
    dutyBufTps := tpsDuty s.cfg (s.chRead chTps)
    dutyBufMap := mapDuty s.baroFlag s.baroDuty (s.chRead chMap)
    deb := debNext s.deb
    vssDiv := (vssNext s.cfg s.vssDiv s.vssPin (s.chRead chVss)).1
    vssPin := (vssNext s.cfg s.vssDiv s.vssPin (s.chRead chVss)).2 }

/-- R90, R127: a refresh that may be dispatched completes. -/
theorem exec_fireRef_eq_refreshed {s : State} (hs : Live s) (hp : s.pendRef = true) (hq : s.pendPsm = false) :
    exec .fireRef s = .next s.refreshed :=
  dispatch_of_enabled refreshCycle hs ((mayDispatch_iff .ref s).2 ⟨hp, .inr hq⟩)

/-- R94: a refresh at a count of at least 2. -/
theorem refreshed_vss_of_two_le {s : State} (h : 2 ≤ s.vssDiv) :
    s.refreshed.vssDiv = s.vssDiv - 1 ∧ s.refreshed.vssPin = s.vssPin := by
  simp [State.refreshed, vssNext_of_two_le _ h]

/-- R94: a refresh at a count of 1. -/
theorem refreshed_vss_of_one {s : State} (h : s.vssDiv = 1) :
    s.refreshed.vssDiv = s.cfg.vssBase + s.ch[2].toNat ∧ s.refreshed.vssPin = !s.vssPin := by
  simp only [State.refreshed, h, vssNext_one, and_true]
  rfl

/-- R92: only the MAP duty of a refresh reads the MAP sample. -/
theorem refreshed_chWrite_chMap (s : State) (m : Sample) :
    (s.chWrite chMap m).refreshed =
      { s.refreshed.chWrite chMap m with dutyBufMap := mapDuty s.baroFlag s.baroDuty m } := by
  have hmap : (s.chWrite chMap m).chRead chMap = m := by simp
  have htps : (s.chWrite chMap m).chRead chTps = s.chRead chTps := by simp [chTps, chMap]
  have hvss : (s.chWrite chMap m).chRead chVss = s.chRead chVss := by simp [chVss, chMap]
  simp only [State.refreshed, hmap, htps, hvss]
  rfl

/-- Settles O27: the refusal is the dispatch's (R127), and the state is that of one refresh. -/
theorem fireRefRefreshesDutiesAndCounters : Obligations.FireRefRefreshesDutiesAndCounters := by
  refine ⟨by decide, fun s hb => ⟨fun h => ?_, fun hf hp hq => ?_⟩⟩
  · exact dispatch_of_not_enabled .ref refreshCycle s hb fun ⟨hf, hp, hq⟩ =>
      h ⟨hf, hp, hq.resolve_left (by decide)⟩
  · refine ⟨s.refreshed.vssDiv, s.refreshed.vssPin, ?_, refreshed_vss_of_two_le, refreshed_vss_of_one⟩
    have htps := tpsDuty_eq_ite s.cfg s.ch[3]
    have hdeb : debNext s.deb = if s.deb ≠ 0 then s.deb - 1 else 0 := (ite_not ..).symm
    rw [exec_fireRef_eq_refreshed ⟨hb, hf⟩ hp hq, ← htps, ← hdeb]
    rfl

/-- Settles O28: cfg_tps_order puts the bounds in order. -/
theorem tpsDutyIsClampedIntoItsBounds : Obligations.TpsDutyIsClampedIntoItsBounds := by
  intro s hs hp hq hv
  have horder := s.cfg.passes_tpsOrder_iff.1 (hv.passes .tpsOrder)
  exact ⟨s.refreshed, exec_fireRef_eq_refreshed hs hp hq, tpsDuty_of_lt_min, tpsDuty_of_max_lt horder,
    tpsDuty_of_between, tpsDuty_mem_bounds _ horder⟩

/-- Settles O29: the second state is the first with the sample written to channel 0. -/
theorem mapDutyIsIndependentOfSampleInBaroMode : Obligations.MapDutyIsIndependentOfSampleInBaroMode := by
  intro s m hs hp hq
  refine ⟨s.refreshed, (s.chWrite chMap m).refreshed, exec_fireRef_eq_refreshed hs hp hq,
    exec_fireRef_eq_refreshed (s := s.chWrite chMap m) hs hp hq, fun hbaro => ?_, fun hbaro => ?_⟩
  · have hduty (v : Sample) : mapDuty s.baroFlag s.baroDuty v = s.baroDuty := by simp [mapDuty, hbaro]
    have ht : s.refreshed.dutyBufMap = s.baroDuty := hduty _
    refine ⟨ht, ?_⟩
    rw [refreshed_chWrite_chMap, hduty, ← ht]
    rfl
  · have hduty (v : Sample) : mapDuty s.baroFlag s.baroDuty v = v := by simp [mapDuty, hbaro]
    refine ⟨hduty _, ?_⟩
    rw [refreshed_chWrite_chMap]
    exact hduty m

/-! ## The divider over any run -/

/-- R47, R94: after RESET one event takes a divider it does not exhaust down by one if it is FIRE_REF, and leaves it
otherwise; VSS_PIN stays. -/
theorem exec_next_vss {i : Instr} {s t : State} (hb : s.booted = true) (h : exec i s = .next t)
    (hlt : [i].count .fireRef < s.vssDiv) :
    t.vssPin = s.vssPin ∧ t.vssDiv = s.vssDiv - [i].count .fireRef := by
  by_cases hi : i = .fireRef
  · subst hi
    obtain ⟨-, -, -, -, rfl⟩ := fireRef_next h
    exact (refreshed_vss_of_two_le hlt).symm
  · obtain ⟨-, hkeep, -⟩ := eachElementHasItsWriters i s t hb h
    obtain ⟨-, -, hdiv, hpin⟩ := hkeep hi
    simp [hdiv, hpin, hi]

/-- R95: over a run with fewer FIRE_REF than VSS_DIV the divider goes down by their number and VSS_PIN stays. -/
theorem runEvents_next_vss {es : List Instr} {s t : State} (hb : s.booted = true) (h : runEvents es s = .next t)
    (hlt : es.count .fireRef < s.vssDiv) :
    t.vssPin = s.vssPin ∧ t.vssDiv = s.vssDiv - es.count .fireRef := by
  induction es generalizing s with
  | nil =>
    cases h
    exact ⟨rfl, rfl⟩
  | cons i es ih =>
    obtain ⟨m, hi, hes⟩ := (runEvents_cons_next_iff i es s t).1 h
    have hcount : (i :: es).count .fireRef = [i].count .fireRef + es.count .fireRef := by
      rw [← List.count_append, List.singleton_append]
    obtain ⟨hpin, hdiv⟩ := exec_next_vss hb hi (by omega)
    obtain ⟨hpin', hdiv'⟩ := ih (exec_next_booted hb hi) hes (by omega)
    exact ⟨hpin'.trans hpin, by omega⟩

/-- R22: no run changes the configuration. -/
theorem runEvents_next_cfg {es : List Instr} {s t : State} (h : runEvents es s = .next t) : t.cfg = s.cfg := by
  induction es generalizing s with
  | nil =>
    cases h
    rfl
  | cons i es ih =>
    obtain ⟨m, hi, hes⟩ := (runEvents_cons_next_iff i es s t).1 h
    exact (ih hes).trans (exec_next_cfg hi)

/-- Settles O30: the run leaves the divider at 1 for the FIRE_REF that inverts the pin. -/
theorem speedPinInvertsOncePerDividerCount : Obligations.SpeedPinInvertsOncePerDividerCount := by
  intro es s t hb h
  refine ⟨runEvents_next_vss hb h, fun hcount u hu => ?_⟩
  obtain ⟨hpin, hdiv⟩ := runEvents_next_vss hb h (by omega)
  obtain ⟨-, -, -, -, rfl⟩ := fireRef_next hu
  obtain ⟨hreload, hinvert⟩ := refreshed_vss_of_one (s := t) (by omega)
  rw [← hpin, ← runEvents_next_cfg h]
  exact ⟨hinvert, hreload⟩

end Sys2Proof.Machine
end

section
/-! PROOFS. Spec 42_adc: the converter and the sampler. One ADC_DONE and one FIRE_ADC (R97, R98, R101), the sequencer
over any run (R99, R100), and the sampling loop in an infinite run with fair dispatch (R100, R135). -/

namespace Sys2Proof.Machine

/-! ## One event of the converter and one of the sampler -/

/-- What ADC_DONE v makes of a state (R97). -/
def State.converted (s : State) (v : Sample) : State := { s with adcRes := v, adcBusy := false, pendAdc := true }

/-- What FIRE_ADC makes of a state (R98). -/
def State.sampled (s : State) : State := nextConversion ((s.setPending .adc false).chWrite s.adcIdx s.adcRes)

@[simp] theorem sampled_adcIdx (s : State) : s.sampled.adcIdx = s.adcIdx + 1 := nextChan_eq s.adcIdx

/-- R98: the result goes to the channel at ADC_IDX, and no other channel changes. -/
@[simp] theorem chRead_sampled (s : State) (k : ChanNo) :
    s.sampled.chRead k = if k = s.adcIdx then s.adcRes else s.chRead k :=
  chRead_chWrite (s.setPending .adc false) s.adcIdx k s.adcRes

/-- R97: a conversion in progress completes. -/
theorem exec_adcDone_eq_converted {s : State} (hs : Live s) (hbusy : s.adcBusy = true) (v : Sample) :
    exec (.adcDone v) s = .next (s.converted v) :=
  whenEnabled_of_enabled (·.adcBusy) (completeConversion v) s hs.1 hs.2 hbusy

/-- R98, R127: FIRE_ADC completes exactly when it may be dispatched, and then samples. -/
theorem exec_fireAdc_next_iff (s t : State) :
    exec .fireAdc s = .next t ↔ Live s ∧ s.pendAdc = true ∧ s.pendPsm = false ∧ t = s.sampled := by
  constructor
  · intro h
    obtain ⟨hb, hf, hp, hq, ht⟩ := fireAdc_next h
    exact ⟨⟨hb, hf⟩, hp, hq, ht⟩
  · rintro ⟨hs, hp, hq, rfl⟩
    exact dispatch_of_enabled sampleChannel hs ((mayDispatch_iff .adc s).2 ⟨hp, .inr hq⟩)

/-- R98, R101: the strobe is pulsed exactly by a FIRE_ADC that completes. -/
theorem adcStart_iff (i : Instr) (s : State) :
    adcStart i s = true ↔ i = .fireAdc ∧ ∃ t, exec .fireAdc s = .next t := by
  unfold adcStart
  split
  · next t ht => simp [ht]
  · next hother =>
    simp only [Bool.false_eq_true, false_iff, not_and, not_exists]
    rintro rfl t ht
    exact hother t rfl ht

/-- Settles O31: the refusal is the gate's (R122). -/
theorem adcDoneRecordsTheResult : Obligations.AdcDoneRecordsTheResult := by
  refine ⟨by decide, fun s v hb => ⟨fun h => ?_, fun hf hbusy => exec_adcDone_eq_converted ⟨hb, hf⟩ hbusy v⟩⟩
  exact whenEnabled_of_not_enabled _ _ s hb fun hf => by simpa [hf] using h

/-- Settles O32: the refusal is the dispatch's (R127), and the channel file is that of one write. -/
theorem fireAdcStoresAndStartsNextChannel : Obligations.FireAdcStoresAndStartsNextChannel := by
  refine ⟨by decide, fun s hb => ⟨fun h => ?_, fun hf hp hq => ?_⟩⟩
  · exact dispatch_of_not_enabled .adc sampleChannel s hb fun ⟨hf, hp, hq⟩ =>
      h ⟨hf, hp, hq.resolve_left (by decide)⟩
  · have hrun : exec .fireAdc s = .next s.sampled := (exec_fireAdc_next_iff s _).2 ⟨⟨hb, hf⟩, hp, hq, rfl⟩
    refine ⟨s.sampled.ch, hrun, (adcStart_iff .fireAdc s).2 ⟨rfl, _, hrun⟩, fun k => ?_⟩
    have hread := chRead_sampled s (BitVec.ofFin k)
    simpa [State.chRead, BitVec.toNat_eq] using hread

/-- R43: a result waits exactly while no conversion is in progress. -/
theorem Consistent.pendAdc_eq {s : State} (hc : Consistent s) : s.pendAdc = !s.adcBusy := by
  rw [hc.one_conversion, Bool.not_not]

/-- Settles O37: ADC_DONE completes only a conversion in progress (R97). -/
theorem conversionNeverMissesItsDeadline : Obligations.ConversionNeverMissesItsDeadline := by
  intro v s t _ hc h
  obtain ⟨-, -, hbusy, -⟩ := adcDone_next h
  rw [hc.pendAdc_eq, hbusy, Bool.not_true]

/-- R47: after RESET only FIRE_ADC moves the sequencer and the multiplexer. -/
theorem exec_next_sequencer {i : Instr} {s t : State} (hb : s.booted = true) (h : exec i s = .next t)
    (hi : i ≠ .fireAdc) : t.adcIdx = s.adcIdx ∧ t.adcMux = s.adcMux := by
  obtain ⟨-, -, -, -, -, hkeep, -⟩ := eachElementHasItsWriters i s t hb h
  exact (hkeep hi).2

/-- Settles O36: FIRE_ADC, the only event that moves the multiplexer, is not enabled during a conversion. -/
theorem multiplexerIsStableDuringConversion : Obligations.MultiplexerIsStableDuringConversion := by
  intro i s hb
  refine ⟨fun t hc hbusy h => ?_, ?_, fun t hstart h => ?_⟩
  · have hi : i ≠ .fireAdc := by
      rintro rfl
      obtain ⟨-, -, hp, -⟩ := fireAdc_next h
      simp [hc.pendAdc_eq, hbusy] at hp
    exact (exec_next_sequencer hb h hi).2
  · simp [adcStart_iff, exec_fireAdc_next_iff, hb]
  · obtain ⟨rfl, -⟩ := (adcStart_iff i s).1 hstart
    obtain ⟨-, -, -, rfl⟩ := (exec_fireAdc_next_iff s t).1 h
    exact ⟨rfl, rfl⟩

/-! ## The sequencer over any run -/

/-- R98, R100: after RESET one event advances ADC_IDX by one modulo 4 if it is FIRE_ADC, and leaves it otherwise. -/
theorem exec_next_adcIdx {i : Instr} {s t : State} (hb : s.booted = true) (h : exec i s = .next t) :
    t.adcIdx.toNat = (s.adcIdx.toNat + [i].count .fireAdc) % 4 := by
  by_cases hi : i = .fireAdc
  · subst hi
    obtain ⟨-, -, -, rfl⟩ := (exec_fireAdc_next_iff s t).1 h
    simp
  · obtain ⟨hidx, -⟩ := exec_next_sequencer hb h hi
    simp [hidx, hi, Nat.mod_eq_of_lt s.adcIdx.isLt]

/-- Settles O33, by induction on the events. -/
theorem sequencerCountsSamplesModFour : Obligations.SequencerCountsSamplesModFour := by
  intro es
  induction es with
  | nil =>
    intro s t _ h
    cases h
    exact (Nat.mod_eq_of_lt s.adcIdx.isLt).symm
  | cons i es ih =>
    intro s t hb h
    obtain ⟨m, hi, hes⟩ := (runEvents_cons_next_iff i es s t).1 h
    calc t.adcIdx.toNat
        = (m.adcIdx.toNat + es.count .fireAdc) % 4 := ih m t (exec_next_booted hb hi) hes
      _ = (s.adcIdx.toNat + [i].count .fireAdc + es.count .fireAdc) % 4 := by
          rw [exec_next_adcIdx hb hi, Nat.mod_add_mod]
      _ = (s.adcIdx.toNat + (i :: es).count .fireAdc) % 4 := by
          rw [Nat.add_assoc, ← List.count_append, List.singleton_append]

/-- R99: a result that waits for FIRE_ADC stays: no conversion is in progress, so no other result arrives. -/
theorem exec_next_result_waits {i : Instr} {s t : State} (hb : s.booted = true) (h : exec i s = .next t)
    (hi : i ≠ .fireAdc) (hbusy : s.adcBusy = false) :
    t.adcBusy = false ∧ t.adcRes = s.adcRes ∧ t.adcIdx = s.adcIdx := by
  have hdone : ∀ v, i ≠ .adcDone v := by
    rintro v rfl
    obtain ⟨-, -, hbusy', -⟩ := adcDone_next h
    simp [hbusy] at hbusy'
  obtain ⟨-, -, -, -, -, -, hkeepBusy, hkeepRes, -⟩ := eachElementHasItsWriters i s t hb h
  exact ⟨(hkeepBusy hi hdone).trans hbusy, hkeepRes hdone, (exec_next_sequencer hb h hi).1⟩

/-- R99: the result and its channel stay over any run without FIRE_ADC. -/
theorem runEvents_next_result_waits {es : List Instr} {s t : State} (hb : s.booted = true)
    (h : runEvents es s = .next t) (hes : .fireAdc ∉ es) (hbusy : s.adcBusy = false) :
    t.adcRes = s.adcRes ∧ t.adcIdx = s.adcIdx := by
  induction es generalizing s with
  | nil =>
    cases h
    exact ⟨rfl, rfl⟩
  | cons i es ih =>
    obtain ⟨m, hi, hrest⟩ := (runEvents_cons_next_iff i es s t).1 h
    obtain ⟨hne, hes⟩ := not_or.1 (mt List.mem_cons.2 hes)
    obtain ⟨hbusy', hres, hidx⟩ := exec_next_result_waits hb hi (Ne.symm hne) hbusy
    obtain ⟨hres', hidx'⟩ := ih (exec_next_booted hb hi) hrest hes hbusy'
    exact ⟨hres'.trans hres, hidx'.trans hidx⟩

/-- Settles O35: the result waits for FIRE_ADC at the ADC_IDX that ADC_MUX equalled (R43). -/
theorem resultIsStoredInItsOwnChannel : Obligations.ResultIsStoredInItsOwnChannel := by
  intro v es s t hb hc hes h
  obtain ⟨m, hrun, hfire⟩ := (runEvents_append_next_iff (.adcDone v :: es) [.fireAdc] s t).1 h
  obtain ⟨d, hdone, hrest⟩ := (runEvents_cons_next_iff (.adcDone v) es s m).1 hrun
  obtain ⟨u, hu, ⟨⟩⟩ := (runEvents_cons_next_iff .fireAdc [] m t).1 hfire
  obtain ⟨-, -, -, rfl⟩ := (exec_fireAdc_next_iff m t).1 hu
  obtain ⟨-, -, -, rfl⟩ := adcDone_next hdone
  obtain ⟨hres, hidx⟩ := runEvents_next_result_waits (exec_next_booted hb hdone) hrest hes rfl
  rw [chRead_sampled, if_pos (hc.mux_eq.trans hidx.symm), hres]

/-! ## A round of conversions -/

/-- What ADC_SAMPLE v makes of a state (R77). -/
def State.withSample (s : State) (v : Sample) : State :=
  { s.chWrite s.adcIdx v with
    adcRes := v, adcIdx := s.adcIdx + 1, adcMux := s.adcIdx + 1, adcBusy := true, pendAdc := false }

@[simp] theorem withSample_adcIdx (s : State) (v : Sample) : (s.withSample v).adcIdx = s.adcIdx + 1 := rfl
@[simp] theorem chRead_withSample (s : State) (v : Sample) (k : ChanNo) :
    (s.withSample v).chRead k = if k = s.adcIdx then v else s.chRead k :=
  chRead_chWrite s s.adcIdx k v

theorem sampled_converted (s : State) (v : Sample) : (s.converted v).sampled = s.withSample v := by
  simp only [State.sampled, nextConversion, nextChan_eq]
  rfl

/-- A conversion is in progress, and nothing keeps its result from being stored at once. -/
structure Converting (s : State) : Prop where
  live : Live s
  pendPsm : s.pendPsm = false
  adcBusy : s.adcBusy = true

theorem Converting.withSample {s : State} (h : Converting s) (v : Sample) : Converting (s.withSample v) :=
  ⟨h.live, h.pendPsm, rfl⟩

/-- R77: ADC_SAMPLE v as the two events it is. -/
theorem runEvents_adcSample {s : State} (h : Converting s) (v : Sample) :
    runEvents (PseudoEvent.adcSample v).expand s = .next (s.withSample v) := by
  have hfire : exec .fireAdc (s.converted v) = .next (s.withSample v) :=
    (exec_fireAdc_next_iff _ _).2 ⟨h.live, rfl, h.pendPsm, (sampled_converted s v).symm⟩
  simp only [PseudoEvent.expand, runEvents, exec_adcDone_eq_converted h.live h.adcBusy v, hfire]

/-- R77: a round is four samples in turn. -/
theorem runEvents_adcRound {s : State} (h : Converting s) (a b c d : Sample) :
    runEvents (PseudoEvent.adcRound a b c d).expand s =
      .next ((((s.withSample a).withSample b).withSample c).withSample d) := by
  have hround : (PseudoEvent.adcRound a b c d).expand = (PseudoEvent.adcSample a).expand ++
      ((PseudoEvent.adcSample b).expand ++ ((PseudoEvent.adcSample c).expand ++ (PseudoEvent.adcSample d).expand)) := rfl
  have ha := h.withSample a
  have hb := ha.withSample b
  have hc := hb.withSample c
  simp only [hround, runEvents_append_next_iff]
  exact ⟨_, runEvents_adcSample h a, _, runEvents_adcSample ha b, _, runEvents_adcSample hb c,
    runEvents_adcSample hc d⟩

/-- Settles O34: the four writes are to four channels, and the fourth advance brings the sequencer back. -/
theorem fourConversionsFillEveryChannelOnce : Obligations.FourConversionsFillEveryChannelOnce := by
  intro s a b c d hs hq hbusy
  refine ⟨_, runEvents_adcRound ⟨hs, hq, hbusy⟩ a b c d, ?_, ?_, ?_, ?_, ?_⟩
  rotate_right
  · simp [State.withSample, BitVec.add_assoc, hbusy]
  all_goals simp [BitVec.add_assoc]

/-! ## The sampling loop in an infinite run -/

section

variable {states : Nat → State} {events : Nat → Instr}

theorem InfiniteRun.live_machineInv (hrun : InfiniteRun states events) (hlive : Live (states 0))
    (hinv : MachineInv (states 0)) (n : Nat) : Live (states n) ∧ MachineInv (states n) := by
  induction n with
  | zero => exact ⟨hlive, hinv⟩
  | succ n ih =>
    obtain ⟨hlive, hinv⟩ := ih
    exact ⟨exec_next_live hlive (hrun n), exec_keeps_machineInv hinv (hrun n)⟩

/-- R97: a converter that completes what is started leaves a result after any point. -/
theorem InfiniteRun.exists_result (hrun : InfiniteRun states events) (hconv : ConverterCompletes states events)
    (n : Nat) : ∃ p, n ≤ p ∧ (states p).adcBusy = false := by
  cases hbusy : (states n).adcBusy with
  | false => exact ⟨n, le_rfl, hbusy⟩
  | true =>
    obtain ⟨m, v, hnm, hdone⟩ := hconv n hbusy
    obtain ⟨-, -, -, hnext⟩ := adcDone_next (hdone ▸ hrun m)
    exact ⟨m + 1, Nat.le_succ_of_le hnm, by rw [hnext]⟩

/-- R97, R98: only FIRE_ADC starts a conversion, so without one none is in progress again. -/
theorem InfiniteRun.adcBusy_of_no_fireAdc (hrun : InfiniteRun states events)
    (hbooted : ∀ n, (states n).booted = true) {p : Nat} (hno : ∀ m, p ≤ m → events m ≠ .fireAdc)
    (hp : (states p).adcBusy = false) (m : Nat) (hm : p ≤ m) : (states m).adcBusy = false := by
  induction m, hm using Nat.le_induction with
  | base => exact hp
  | succ m hm ih => exact (exec_next_result_waits (hbooted m) (hrun m) (hno m hm) ih).1

/-- R100: if a result that waits for ever is sampled, the sampler runs after any point. -/
theorem InfiniteRun.exists_fireAdc (hrun : InfiniteRun states events) (hlive : Live (states 0))
    (hinv : MachineInv (states 0)) (hconv : ConverterCompletes states events)
    (hserved : ∀ p, (∀ m, p ≤ m → (states m).pendAdc = true) → ∃ m, p ≤ m ∧ events m = .fireAdc) (n : Nat) :
    ∃ m, n ≤ m ∧ events m = .fireAdc := by
  by_contra! hno
  have hgood := hrun.live_machineInv hlive hinv
  have hbooted (m : Nat) : (states m).booted = true := (hgood m).1.1
  obtain ⟨p, hnp, hp⟩ := hrun.exists_result hconv n
  have hidle := hrun.adcBusy_of_no_fireAdc hbooted (fun m hm => hno m (hnp.trans hm)) hp
  obtain ⟨m, hpm, hfire⟩ := hserved p fun m hm => by
    rw [((hgood m).2.consistent (hbooted m)).pendAdc_eq, hidle m hm, Bool.not_false]
  exact hno m (hnp.trans hpm) hfire

/-- R47: the first FIRE_ADC from a point on finds ADC_IDX as it was there. -/
theorem InfiniteRun.exists_fireAdc_same_adcIdx (hrun : InfiniteRun states events)
    (hbooted : ∀ n, (states n).booted = true) (hfires : ∀ n, ∃ m, n ≤ m ∧ events m = .fireAdc) (n : Nat) :
    ∃ m, n ≤ m ∧ events m = .fireAdc ∧ (states m).adcIdx = (states n).adcIdx := by
  obtain ⟨m, hm, hfire⟩ := hfires n
  obtain ⟨d, rfl⟩ := Nat.exists_eq_add_of_le hm
  clear hm
  induction d generalizing n with
  | zero => exact ⟨n, le_rfl, hfire, rfl⟩
  | succ d ih =>
    by_cases hn : events n = .fireAdc
    · exact ⟨n, le_rfl, hn, rfl⟩
    · obtain ⟨m, hm, hfire', hidx⟩ := ih (n + 1) (by rwa [Nat.add_right_comm])
      exact ⟨m, Nat.le_of_succ_le hm, hfire', hidx.trans (exec_next_sequencer (hbooted n) (hrun n) hn).1⟩

/-- R98, R100: the FIRE_ADC after d others from a point on finds ADC_IDX advanced by d. -/
theorem InfiniteRun.exists_fireAdc_adcIdx_add (hrun : InfiniteRun states events)
    (hbooted : ∀ n, (states n).booted = true) (hfires : ∀ n, ∃ m, n ≤ m ∧ events m = .fireAdc) (d n : Nat) :
    ∃ m, n ≤ m ∧ events m = .fireAdc ∧ (states m).adcIdx = (states n).adcIdx + BitVec.ofNat 2 d := by
  induction d generalizing n with
  | zero => simpa using hrun.exists_fireAdc_same_adcIdx hbooted hfires n
  | succ d ih =>
    obtain ⟨j, hnj, hfire, hidx⟩ := hrun.exists_fireAdc_same_adcIdx hbooted hfires n
    obtain ⟨-, -, -, hnext⟩ := (exec_fireAdc_next_iff _ _).1 (hfire ▸ hrun j)
    obtain ⟨m, hjm, hfire', hidx'⟩ := ih (j + 1)
    refine ⟨m, hnj.trans (Nat.le_of_succ_le hjm), hfire', ?_⟩
    rw [hidx', hnext, sampled_adcIdx, hidx, BitVec.ofNat_add, BitVec.add_assoc, BitVec.add_comm 1]
    rfl

/-- R100: a sampler that runs after any point passes each channel after any point. -/
theorem InfiniteRun.channelsRefreshedForever (hrun : InfiniteRun states events)
    (hbooted : ∀ n, (states n).booted = true) (hfires : ∀ n, ∃ m, n ≤ m ∧ events m = .fireAdc) :
    ChannelsRefreshedForever states events := by
  intro k n
  obtain ⟨m, hnm, hfire, hidx⟩ :=
    hrun.exists_fireAdc_adcIdx_add hbooted hfires (k - (states n).adcIdx).toNat n
  have hk : (states m).adcIdx = k := by
    rw [hidx, BitVec.ofNat_toNat, BitVec.setWidth_eq, BitVec.add_comm, BitVec.sub_add_cancel]
  obtain ⟨-, -, -, hnext⟩ := (exec_fireAdc_next_iff _ _).1 (hfire ▸ hrun m)
  exact ⟨m, hnm, hfire, hk, by rw [hnext, chRead_sampled, if_pos hk.symm]⟩

end

/-- Settles O54: a result that waits for ever is pending for ever, so fair dispatch samples it. -/
theorem fairDispatchRefreshesEveryChannelForever : Obligations.FairDispatchRefreshesEveryChannelForever := by
  intro states events hrun hfair hconv hlive hinv
  have hbooted (n : Nat) : (states n).booted = true := (hrun.live_machineInv hlive hinv n).1.1
  exact hrun.channelsRefreshedForever hbooted (hrun.exists_fireAdc hlive hinv hconv (hfair .adc))

/-- Settles O55: with no PSM firing pending a pending sample is enabled (R128), so weak fairness serves it. -/
theorem quietPsmRefreshesEveryChannelForever : Obligations.QuietPsmRefreshesEveryChannelForever := by
  intro states events q hrun hfair hconv hlive hinv hquiet
  have hgood := hrun.live_machineInv hlive hinv
  refine hrun.channelsRefreshedForever (fun n => (hgood n).1.1)
    (hrun.exists_fireAdc hlive hinv hconv fun p hpend => ?_)
  obtain ⟨m, hm, hfire⟩ := hfair .adc (max p q) fun m hm =>
    ⟨_, (exec_fireAdc_next_iff _ _).2
      ⟨(hgood m).1, hpend m (le_of_max_le_left hm), hquiet m (le_of_max_le_right hm), rfl⟩⟩
  exact ⟨m, le_of_max_le_left hm, hfire⟩

end Sys2Proof.Machine
end

section
/-! PROOFS. Spec 43_toggles: the two edge inputs (R103, R105), their handlers with and without the debounce filter
(R104, R106), and the ignore window over any run (R107, R108). -/

namespace Sys2Proof.Machine

/-! ## The edge inputs -/

/-- R121: in the fault state the gate refuses every event, whatever its condition. -/
theorem whenEnabled_of_fault (en : State → Bool) (op : State → Result) {s : State} (hb : s.booted = true)
    (hf : s.fault ≠ none) : whenEnabled en op s = .refused .notEnabled :=
  whenEnabled_of_not_enabled en op s hb fun hnone => absurd hnone hf

theorem exec_runEdge_eq_whenEnabled (s : State) :
    exec .runEdge s = whenEnabled (fun _ => true) (fun s => .next (s.setPending .run true)) s := rfl

theorem exec_baroEdge_eq_whenEnabled (s : State) :
    exec .baroEdge s = whenEnabled (fun _ => true) (raiseSource .baro .deadlineMissBaro) s := rfl

/-- R103: after RESET and without a fault, a run edge only makes its handler pending. -/
theorem exec_runEdge_of_live {s : State} (hs : Live s) : exec .runEdge s = .next { s with pendRun := true } := by
  rw [exec_runEdge_eq_whenEnabled, whenEnabled_of_enabled _ _ s hs.1 hs.2 rfl]
  rfl

/-- R105: after RESET and without a fault, a baro edge is its source's event under a deadline. -/
theorem exec_baroEdge_of_live {s : State} (hs : Live s) :
    exec .baroEdge s = raiseSource .baro .deadlineMissBaro s := by
  rw [exec_baroEdge_eq_whenEnabled, whenEnabled_of_enabled _ _ s hs.1 hs.2 rfl]

/-- Settles O38: the write of a bit that is already set changes nothing, so the edge is absorbed. -/
theorem runEdgePendsOrIsAbsorbed : Obligations.RunEdgePendsOrIsAbsorbed := by
  refine ⟨by decide, fun s hb => ⟨fun hf => ?_, fun hf _ => exec_runEdge_of_live ⟨hb, hf⟩, fun hf hp => ?_⟩⟩
  · rw [exec_runEdge_eq_whenEnabled, whenEnabled_of_fault _ _ hb hf]
  · rw [exec_runEdge_of_live ⟨hb, hf⟩, ← hp]

/-- Settles O41: the pending bit decides between the source's event and the missed deadline. -/
theorem baroEdgePendsOrMissesDeadline : Obligations.BaroEdgePendsOrMissesDeadline := by
  refine ⟨by decide, fun s hb => ⟨fun hf => ?_, fun hf hp => ?_, fun hf hp => ?_⟩⟩
  · rw [exec_baroEdge_eq_whenEnabled, whenEnabled_of_fault _ _ hb hf]
  · rw [exec_baroEdge_of_live ⟨hb, hf⟩]
    exact (raiseSource_next_iff _ _ _ _).2 ⟨hp, rfl⟩
  · rw [exec_baroEdge_of_live ⟨hb, hf⟩]
    exact (raiseSource_fault_iff _ _ _ _).2 ⟨hp, rfl⟩

/-! ## Their handlers -/

/-- R127, R128: a dispatch other than PSM's is refused unless it is pending, with no fault and no PSM firing pending. -/
theorem dispatch_of_not_pending_or_blocked {src : Source} (hsrc : src ≠ .psm) (op : State → Result) {s : State}
    (hb : s.booted = true) (h : ¬ (s.fault = none ∧ s.pending src = true ∧ s.pendPsm = false)) :
    dispatch src op s = .refused .notEnabled :=
  dispatch_of_not_enabled src op s hb fun ⟨hf, hp, hq⟩ => h ⟨hf, hp, hq.resolve_left hsrc⟩

/-- R104, R127: a run edge's handler that may be dispatched runs with its pending bit cleared. -/
theorem exec_fireRun_of_pending {s : State} (hs : Live s) (hp : s.pendRun = true) (hq : s.pendPsm = false) :
    exec .fireRun s = toggleRun (s.setPending .run false) :=
  dispatch_of_enabled toggleRun hs ((mayDispatch_iff .run s).2 ⟨hp, .inr hq⟩)

/-- R104: with no window open the edge is genuine: RUN is inverted and the window opens. -/
theorem toggleRun_of_deb_eq_zero {s : State} (h : s.deb = 0) :
    toggleRun s = .next { s with run := !s.run, deb := s.cfg.debWindow } := if_pos h

/-- R104: inside the window the edge is ignored. -/
theorem toggleRun_of_deb_pos {s : State} (h : 0 < s.deb) : toggleRun s = .next s := if_neg (Nat.ne_of_gt h)

/-- Settles O39: the refusal is the dispatch's (R127), and DEB decides between the two ways of the handler. -/
theorem fireRunInvertsRunOnlyWhenIdle : Obligations.FireRunInvertsRunOnlyWhenIdle := by
  refine ⟨by decide, fun s hb => ⟨fun h => ?_, fun hf hp hq => ?_⟩⟩
  · exact dispatch_of_not_pending_or_blocked (src := .run) (by decide) toggleRun hb h
  · rw [exec_fireRun_of_pending ⟨hb, hf⟩ hp hq]
    exact ⟨toggleRun_of_deb_eq_zero (s := s.setPending .run false),
      toggleRun_of_deb_pos (s := s.setPending .run false)⟩

theorem exec_fireBaro_eq_dispatch (s : State) :
    exec .fireBaro s = dispatch .baro (fun s => .next (invertBaroFlag s)) s := rfl

/-- Settles O42: the refusal is the dispatch's (R127), and the operation has no condition. -/
theorem fireBaroAlwaysInvertsBaroFlag : Obligations.FireBaroAlwaysInvertsBaroFlag := by
  refine ⟨by decide, fun s hb => ⟨fun h => ?_, fun hf hp hq => ?_⟩⟩
  · rw [exec_fireBaro_eq_dispatch, dispatch_of_not_pending_or_blocked (src := .baro) (by decide) _ hb h]
  · rw [exec_fireBaro_eq_dispatch, dispatch_of_enabled _ ⟨hb, hf⟩ ((mayDispatch_iff .baro s).2 ⟨hp, .inr hq⟩)]
    rfl

/-! ## The ignore window over any run -/

/-- R93: the countdown is the subtraction that stops at 0. -/
theorem debNext_eq_sub_one (d : Nat) : debNext d = d - 1 := by
  cases d <;> rfl

/-- R93, R104: after RESET one event takes a window it does not close down by one if it is FIRE_REF, and leaves it
otherwise; RUN stays, since FIRE_RUN ignores its edge inside the window. -/
theorem exec_next_window {i : Instr} {s t : State} (hb : s.booted = true) (h : exec i s = .next t)
    (hlt : [i].count .fireRef < s.deb) : t.run = s.run ∧ t.deb = s.deb - [i].count .fireRef := by
  obtain ⟨-, -, hkeepDeb, hkeepRun, -⟩ := eachElementHasItsWriters i s t hb h
  by_cases hrun : i = .fireRun
  · subst hrun
    obtain ⟨-, -, -, -, ⟨hdeb, -⟩ | ⟨-, rfl⟩⟩ := fireRun_next h
    · omega
    · exact ⟨rfl, rfl⟩
  · by_cases href : i = .fireRef
    · subst href
      obtain ⟨-, -, -, -, rfl⟩ := fireRef_next h
      exact ⟨rfl, debNext_eq_sub_one s.deb⟩
    · exact ⟨hkeepRun hrun, by simp [hkeepDeb href hrun, href]⟩

/-- Settles O40, by induction on the events: each leaves the window open for the rest of the run. -/
theorem ignoreWindowLastsDebRefreshes : Obligations.IgnoreWindowLastsDebRefreshes := by
  intro es
  induction es with
  | nil =>
    intro s t _ h _
    cases h
    exact ⟨rfl, rfl⟩
  | cons i es ih =>
    intro s t hb h hlt
    obtain ⟨m, hi, hes⟩ := (runEvents_cons_next_iff i es s t).1 h
    have hcount : (i :: es).count .fireRef = [i].count .fireRef + es.count .fireRef := by
      rw [← List.count_append, List.singleton_append]
    obtain ⟨hrun, hdeb⟩ := exec_next_window hb hi (by omega)
    obtain ⟨hrun', hdeb'⟩ := ih m t (exec_next_booted hb hi) hes (by omega)
    exact ⟨hrun'.trans hrun, by omega⟩

end Sys2Proof.Machine
end

section
/-! PROOFS. Spec 44_timers_pwm: one tick of each timer (R109, R111), the ticks to the next compare match (R110, R141),
a whole PWM period (R114), the active duties until the overflow (R113) and the output law (R112). -/

namespace Sys2Proof.Machine

/-! ## A run event by event -/

theorem runEvents_cons_of_next {i : Instr} {s t : State} (h : exec i s = .next t) (es : List Instr) :
    runEvents (i :: es) s = runEvents es t := by
  rw [runEvents, h]

theorem runEvents_cons_of_fault {i : Instr} {s : State} {f : Fault} (h : exec i s = .fault f) (es : List Instr) :
    runEvents (i :: es) s = .fault f := by
  rw [runEvents, h]

@[simp] theorem runEvents_singleton (i : Instr) (s : State) : runEvents [i] s = exec i s := by
  rw [runEvents]
  cases exec i s <;> rfl

/-- A run that goes on after some events that complete is the run of the others from the state they leave. -/
theorem runEvents_append_of_next {es : List Instr} {s t : State} (h : runEvents es s = .next t) (fs : List Instr) :
    runEvents (es ++ fs) s = runEvents fs t := by
  induction es generalizing s with
  | nil =>
    cases h
    rfl
  | cons i es ih =>
    obtain ⟨m, hi, hes⟩ := (runEvents_cons_next_iff i es s t).1 h
    rw [List.cons_append, runEvents_cons_of_next hi, ih hes]

theorem runEvents_replicate_succ_of_next {n : Nat} {i : Instr} {s t : State}
    (h : runEvents (List.replicate n i) s = .next t) : runEvents (List.replicate (n + 1) i) s = exec i t := by
  rw [List.replicate_succ', runEvents_append_of_next h, runEvents_singleton]

/-! ## One tick of the rotation timer -/

theorem exec_rotTick_eq_whenEnabled (s : State) : exec .rotTick s = whenEnabled (fun _ => true) tickRotation s := rfl

theorem exec_rotTick_of_live {s : State} (hs : Live s) : exec .rotTick s = tickRotation s := by
  rw [exec_rotTick_eq_whenEnabled, whenEnabled_of_enabled _ _ s hs.1 hs.2 rfl]

/-- R109, D10: the stopped timer holds. -/
theorem exec_rotTick_of_stopped {s : State} (hs : Live s) (hrun : s.run = false) : exec .rotTick s = .next s := by
  rw [exec_rotTick_of_live hs, tickRotation, if_pos hrun]

/-- R109: without a match the running timer counts. -/
theorem exec_rotTick_of_no_match {s : State} (hs : Live s) (hrun : s.run = true)
    (hno : (s.rotCnt + 1) % 2 ^ s.cfg.cmpW ≠ s.rotCmp) :
    exec .rotTick s = .next { s with rotCnt := (s.rotCnt + 1) % 2 ^ s.cfg.cmpW } := by
  rw [exec_rotTick_of_live hs, tickRotation, if_neg (by simp [hrun]), nextRotCnt, if_neg hno]

/-- R109: a match clears the counter and is PSM's event under its deadline. -/
theorem exec_rotTick_of_match {s : State} (hs : Live s) (hrun : s.run = true)
    (hmatch : (s.rotCnt + 1) % 2 ^ s.cfg.cmpW = s.rotCmp) :
    exec .rotTick s = raiseSource .psm .deadlineMissPsm { s with rotCnt := 0 } := by
  rw [exec_rotTick_of_live hs, tickRotation, if_neg (by simp [hrun]), nextRotCnt, if_pos hmatch]

/-- R109: a match with no firing pending makes one pending. -/
theorem exec_rotTick_of_match_of_idle {s : State} (hs : Live s) (hrun : s.run = true)
    (hmatch : (s.rotCnt + 1) % 2 ^ s.cfg.cmpW = s.rotCmp) (hp : s.pendPsm = false) :
    exec .rotTick s = .next { s with rotCnt := 0, pendPsm := true } := by
  rw [exec_rotTick_of_match hs hrun hmatch]
  exact (raiseSource_next_iff _ _ _ _).2 ⟨hp, rfl⟩

/-- R109, R123: a match with a firing pending misses its deadline. -/
theorem exec_rotTick_of_match_of_pending {s : State} (hs : Live s) (hrun : s.run = true)
    (hmatch : (s.rotCnt + 1) % 2 ^ s.cfg.cmpW = s.rotCmp) (hp : s.pendPsm = true) :
    exec .rotTick s =
      .fault (.raised .deadlineMissPsm { s with rotCnt := 0, fault := some .deadlineMissPsm }) := by
  rw [exec_rotTick_of_match hs hrun hmatch]
  exact (raiseSource_fault_iff _ _ _ _).2 ⟨hp, rfl⟩

/-- Settles O12: RUN, the compare and the pending bit pick the way of the tick. -/
theorem rotTickCountsMatchesOrMissesDeadline : Obligations.RotTickCountsMatchesOrMissesDeadline := by
  refine ⟨by decide, fun s hb => ⟨fun hf => ?_, fun hf => ?_⟩⟩
  · rw [exec_rotTick_eq_whenEnabled, whenEnabled_of_fault _ _ hb hf]
  · have hs : Live s := ⟨hb, hf⟩
    exact ⟨exec_rotTick_of_stopped hs, exec_rotTick_of_no_match hs, exec_rotTick_of_match_of_idle hs,
      exec_rotTick_of_match_of_pending hs⟩

/-! ## The ticks to the next match -/

/-- The n-th tick of the running timer is the first whose count equals ROT_CMP (R110). -/
structure FirstMatchAfter (s : State) (n : Nat) : Prop where
  pos : 0 < n
  reached : (s.rotCnt + n) % 2 ^ s.cfg.cmpW = s.rotCmp
  not_before : ∀ k, 0 < k → k < n → (s.rotCnt + k) % 2 ^ s.cfg.cmpW ≠ s.rotCmp

section
variable {s : State} {n : Nat} (hs : Live s) (hrun : s.run = true) (hcnt : s.rotCnt < 2 ^ s.cfg.cmpW)
  (hfirst : FirstMatchAfter s n)
include hs hrun hcnt hfirst

/-- R109: until the first match only the counter changes. -/
theorem runEvents_rotTicks_before_match {k : Nat} (hk : k < n) :
    runEvents (List.replicate k .rotTick) s = .next { s with rotCnt := (s.rotCnt + k) % 2 ^ s.cfg.cmpW } := by
  induction k with
  | zero => simp [Nat.mod_eq_of_lt hcnt]
  | succ k ih =>
    have hno := hfirst.not_before (k + 1) k.succ_pos hk
    rw [← Nat.add_assoc, ← Nat.mod_add_mod] at hno ⊢
    rw [runEvents_replicate_succ_of_next (ih (by omega))]
    exact exec_rotTick_of_no_match hs hrun hno

/-- R109, R110: the first match makes a firing pending when none was. -/
theorem runEvents_rotTicks_to_match (hp : s.pendPsm = false) :
    runEvents (List.replicate n .rotTick) s = .next { s with rotCnt := 0, pendPsm := true } := by
  obtain ⟨k, rfl⟩ := Nat.exists_eq_succ_of_ne_zero hfirst.pos.ne'
  rw [runEvents_replicate_succ_of_next (runEvents_rotTicks_before_match hs hrun hcnt hfirst k.lt_succ_self)]
  exact exec_rotTick_of_match_of_idle hs hrun ((Nat.mod_add_mod _ _ _).trans hfirst.reached) hp

end

/-- R110: a compare value ahead of the counter is matched after the ticks left. -/
theorem firstMatchAfter_of_ahead {s : State} (hlt : s.rotCnt < s.rotCmp) (hcmp : s.rotCmp < 2 ^ s.cfg.cmpW) :
    FirstMatchAfter s (s.rotCmp - s.rotCnt) where
  pos := by omega
  reached := by rw [Nat.add_sub_cancel' hlt.le, Nat.mod_eq_of_lt hcmp]
  not_before k _ hk := by
    rw [Nat.mod_eq_of_lt (by omega)]
    omega

/-- R110, R141: a compare value the counter has reached is matched only after the counter wraps to 0. -/
theorem firstMatchAfter_of_reached {s : State} (hpos : 1 ≤ s.rotCmp) (hle : s.rotCmp ≤ s.rotCnt)
    (hcnt : s.rotCnt < 2 ^ s.cfg.cmpW) : FirstMatchAfter s (2 ^ s.cfg.cmpW - s.rotCnt + s.rotCmp) where
  pos := by omega
  reached := by
    rw [← Nat.add_assoc, Nat.add_sub_cancel' hcnt.le, Nat.add_mod_left, Nat.mod_eq_of_lt (by omega)]
  not_before k hk hkn := by
    by_cases hwrap : s.rotCnt + k < 2 ^ s.cfg.cmpW
    · rw [Nat.mod_eq_of_lt hwrap]
      omega
    · rw [Nat.mod_eq_sub_mod (by omega), Nat.mod_eq_of_lt (by omega)]
      omega

/-- Settles O14: below ROT_CMP the count is the plain sum. -/
theorem matchComesAfterTheTicksLeft : Obligations.MatchComesAfterTheTicksLeft := by
  intro s hs hrun hp hlt hcmp
  have hfirst := firstMatchAfter_of_ahead hlt hcmp
  refine ⟨fun n hn => ?_, runEvents_rotTicks_to_match hs hrun (by omega) hfirst hp⟩
  rw [runEvents_rotTicks_before_match hs hrun (by omega) hfirst (by omega), Nat.mod_eq_of_lt (by omega)]

/-- Settles O15: the first match comes after the wrap. -/
theorem rearmRaceDelaysTheMatchByAWrap : Obligations.RearmRaceDelaysTheMatchByAWrap := by
  intro s hs hrun hp hpos hle hcnt
  have hfirst := firstMatchAfter_of_reached hpos hle hcnt
  exact ⟨fun n => runEvents_rotTicks_before_match hs hrun hcnt hfirst,
    runEvents_rotTicks_to_match hs hrun hcnt hfirst hp⟩

/-! ## One tick of the PWM timer -/

theorem exec_pwmTick_eq_whenEnabled (s : State) : exec .pwmTick s = whenEnabled (fun _ => true) tickPwm s := rfl

theorem exec_pwmTick_of_live {s : State} (hs : Live s) : exec .pwmTick s = tickPwm s := by
  rw [exec_pwmTick_eq_whenEnabled, whenEnabled_of_enabled _ _ s hs.1 hs.2 rfl]

/-- The PWM count overflows exactly at 255. -/
theorem nextPwmCnt_eq_zero_iff (n : BitVec 8) : nextPwmCnt n = 0 ↔ n.toNat = 255 := by
  rw [nextPwmCnt_eq]
  bv_omega

/-- R111: below 255 the timer counts. -/
theorem exec_pwmTick_of_count {s : State} (hs : Live s) (hlt : s.pwmCnt.toNat < 255) :
    exec .pwmTick s = .next { s with pwmCnt := s.pwmCnt + 1#8 } := by
  rw [exec_pwmTick_of_live hs, tickPwm, if_neg (mt (nextPwmCnt_eq_zero_iff _).1 hlt.ne), nextPwmCnt_eq]
  rfl

/-- R111: the overflow latches both duties and is the refresh's event under its deadline. -/
theorem exec_pwmTick_of_overflow {s : State} (hs : Live s) (h : s.pwmCnt.toNat = 255) :
    exec .pwmTick s = raiseSource .ref .deadlineMissRef (latchDuties { s with pwmCnt := 0 }) := by
  have hzero := (nextPwmCnt_eq_zero_iff _).2 h
  rw [exec_pwmTick_of_live hs, tickPwm, if_pos hzero, hzero]

/-- R111: an overflow with no refresh pending makes one pending. -/
theorem exec_pwmTick_of_overflow_of_idle {s : State} (hs : Live s) (h : s.pwmCnt.toNat = 255)
    (hp : s.pendRef = false) :
    exec .pwmTick s = .next
      { s with pwmCnt := 0, dutyActMap := s.dutyBufMap, dutyActTps := s.dutyBufTps, pendRef := true } := by
  rw [exec_pwmTick_of_overflow hs h]
  exact (raiseSource_next_iff _ _ _ _).2 ⟨hp, rfl⟩

/-- R111, R123: an overflow with a refresh pending misses its deadline, after the latch. -/
theorem exec_pwmTick_of_overflow_of_pending {s : State} (hs : Live s) (h : s.pwmCnt.toNat = 255)
    (hp : s.pendRef = true) :
    exec .pwmTick s = .fault (.raised .deadlineMissRef
      { s with pwmCnt := 0, dutyActMap := s.dutyBufMap, dutyActTps := s.dutyBufTps,
               fault := some .deadlineMissRef }) := by
  rw [exec_pwmTick_of_overflow hs h]
  exact (raiseSource_fault_iff _ _ _ _).2 ⟨hp, rfl⟩

/-- Settles O13: the count and the pending bit pick the way of the tick. -/
theorem pwmTickCountsLatchesOrMissesDeadline : Obligations.PwmTickCountsLatchesOrMissesDeadline := by
  refine ⟨by decide, fun s hb => ⟨fun hf => ?_, fun hf => ?_⟩⟩
  · rw [exec_pwmTick_eq_whenEnabled, whenEnabled_of_fault _ _ hb hf]
  · have hs : Live s := ⟨hb, hf⟩
    exact ⟨exec_pwmTick_of_count hs, exec_pwmTick_of_overflow_of_idle hs, exec_pwmTick_of_overflow_of_pending hs⟩

/-! ## A PWM period -/

/-- R111: ticks that do not overflow change only the counter. -/
theorem runEvents_pwmTicks_of_no_overflow {s : State} (hs : Live s) {n : Nat} (hle : s.pwmCnt.toNat + n ≤ 255) :
    runEvents (List.replicate n .pwmTick) s = .next { s with pwmCnt := s.pwmCnt + BitVec.ofNat 8 n } := by
  induction n with
  | zero => simp
  | succ n ih =>
    have hlt : (s.pwmCnt + BitVec.ofNat 8 n).toNat < 255 := by
      rw [BitVec.toNat_add, BitVec.toNat_ofNat]
      omega
    rw [runEvents_replicate_succ_of_next (ih (by omega)), BitVec.ofNat_add, ← BitVec.add_assoc]
    exact exec_pwmTick_of_count hs hlt

/-- R114: a period is the ticks to the count 255, one overflow, and as many ticks as the count it starts at. -/
theorem runEvents_pwmPeriod {s : State} (hs : Live s) :
    runEvents PseudoEvent.pwmPeriod.expand s =
      runEvents (.pwmTick :: List.replicate s.pwmCnt.toNat .pwmTick) { s with pwmCnt := 255#8 } := by
  have hcnt := s.pwmCnt.isLt
  have hlen : 256 = (255 - s.pwmCnt.toNat) + (s.pwmCnt.toNat + 1) := by omega
  have hlast : s.pwmCnt + BitVec.ofNat 8 (255 - s.pwmCnt.toNat) = 255#8 := by bv_omega
  rw [PseudoEvent.expand, hlen, List.replicate_add,
    runEvents_append_of_next (runEvents_pwmTicks_of_no_overflow hs (by omega)), hlast, List.replicate_succ]

/-- Settles O17: the period's one overflow decides, and the ticks after it bring the count back. -/
theorem pwmPeriodIs256Ticks : Obligations.PwmPeriodIs256Ticks := by
  intro s hs
  rw [runEvents_pwmPeriod hs]
  refine ⟨fun hp => ?_, fun hp => ?_⟩
  · have htick := exec_pwmTick_of_overflow_of_idle (s := { s with pwmCnt := 255#8 }) hs rfl hp
    rw [runEvents_cons_of_next htick, runEvents_pwmTicks_of_no_overflow]
    · simp
    · exact hs
    · simpa using Nat.le_of_lt_succ s.pwmCnt.isLt
  · have htick := exec_pwmTick_of_overflow_of_pending (s := { s with pwmCnt := 255#8 }) hs rfl hp
    exact runEvents_cons_of_fault htick _

/-! ## The active duties over any run -/

/-- R47, R111: after RESET one event that does not overflow the PWM count adds one to it if it is PWM_TICK, and leaves
it otherwise; both active duties stay. -/
theorem exec_next_activeDuties {i : Instr} {s t : State} (hb : s.booted = true) (h : exec i s = .next t)
    (hlt : s.pwmCnt.toNat + [i].count .pwmTick < 256) :
    t.pwmCnt.toNat = s.pwmCnt.toNat + [i].count .pwmTick ∧ t.dutyActMap = s.dutyActMap ∧
      t.dutyActTps = s.dutyActTps := by
  by_cases hi : i = .pwmTick
  · subst hi
    have hcount : (s.pwmCnt + 1).toNat = s.pwmCnt.toNat + 1 := by
      rw [BitVec.toNat_add]
      exact Nat.mod_eq_of_lt hlt
    obtain ⟨-, -, ⟨-, rfl⟩ | ⟨hzero, -⟩⟩ := pwmTick_next h
    · exact ⟨hcount, rfl, rfl⟩
    · rw [hzero] at hcount
      exact absurd hcount.symm (Nat.succ_ne_zero _)
  · obtain ⟨-, -, -, -, -, -, -, -, -, hkeep, -⟩ := eachElementHasItsWriters i s t hb h
    obtain ⟨hcnt, hduties⟩ := hkeep hi
    exact ⟨by simp [hcnt, hi], hduties⟩

/-- Settles O18, by induction on the events. -/
theorem activeDutiesHoldThroughThePeriod : Obligations.ActiveDutiesHoldThroughThePeriod := by
  intro es
  induction es with
  | nil =>
    intro s t _ h _
    cases h
    exact ⟨rfl, rfl, rfl⟩
  | cons i es ih =>
    intro s t hb h hlt
    obtain ⟨m, hi, hes⟩ := (runEvents_cons_next_iff i es s t).1 h
    have hcount : (i :: es).count .pwmTick = [i].count .pwmTick + es.count .pwmTick := by
      rw [← List.count_append, List.singleton_append]
    obtain ⟨hcnt, hmap, htps⟩ := exec_next_activeDuties hb hi (by omega)
    obtain ⟨hcnt', hmap', htps'⟩ := ih m t (exec_next_booted hb hi) hes (by omega)
    exact ⟨by omega, hmap'.trans hmap, htps'.trans htps⟩

/-! ## The output law -/

/-- R112: an output is 1 exactly while the count is below the duty. -/
theorem pwmHigh_iff (cnt duty : BitVec 8) : pwmHigh cnt duty = true ↔ cnt.toNat < duty.toNat := by
  rw [pwmHigh, decide_eq_true_iff, BitVec.lt_def]

/-- Of the numbers below n, those below d are min n d. -/
theorem countP_range_lt (n d : Nat) : (List.range n).countP (fun c => c < d) = min n d := by
  induction n with
  | zero => simp
  | succ n ih =>
    rw [List.range_succ, List.countP_append, ih, List.countP_singleton]
    simp only [decide_eq_true_eq]
    split <;> omega

/-- R112: over the 256 counts an output is 1 for exactly its duty of them. -/
theorem countP_pwmHigh (duty : BitVec 8) :
    (List.range 256).countP (fun c => pwmHigh (BitVec.ofNat 8 c) duty) = duty.toNat := by
  have hlow : ∀ c ∈ List.range 256, pwmHigh (BitVec.ofNat 8 c) duty = true ↔ decide (c < duty.toNat) = true := by
    intro c hc
    rw [pwmHigh_iff, BitVec.toNat_ofNat, Nat.mod_eq_of_lt (List.mem_range.1 hc), decide_eq_true_iff]
  rw [List.countP_congr hlow, countP_range_lt]
  exact Nat.min_eq_right duty.isLt.le

/-- Settles O19: both outputs follow the one law. -/
theorem pwmOutputIsHighForDutyCounts : Obligations.PwmOutputIsHighForDutyCounts :=
  fun s => ⟨pwmHigh_iff _ _, pwmHigh_iff _ _, countP_pwmHigh s.dutyActMap, countP_pwmHigh s.dutyActTps⟩

end Sys2Proof.Machine
end

section
/-! PROOFS. Spec 60_exceptions: the words the step refuses (R122), the fault state (R121), the exact faults (R123), the
pending bits and the dispatch that clears them (R126 to R128), and weakly fair dispatch in infinite runs (R135). -/

namespace Sys2Proof.Machine

/-! ## Words that spell no event -/

theorem takeEvent_of_decode_error {w : EventWord} {r : DecodeRefusal} (hd : decode w = .error r) (s : State) :
    takeEvent w s = .refused (refusalOf r) := by
  simp [takeEvent, hd]

/-- Settles O8: the step decodes the word before it looks at the rest of the state. -/
theorem stepRefusesUndecodableWordFirst : Obligations.StepRefusesUndecodableWordFirst := by
  intro s w rest hv ht
  rw [step_of_trace_cons hv ht]
  exact ⟨fun hd => takeEvent_of_decode_error hd s, fun hd => takeEvent_of_decode_error hd s⟩

/-! ## The gate of every event but RESET -/

/-- R122: every event but RESET is some operation behind the gate. -/
theorem exec_eq_whenEnabled {i : Instr} (hi : ∀ cal, i ≠ .reset cal) :
    ∃ en op, ∀ s, exec i s = whenEnabled en op s := by
  cases i with
  | reset cal => exact absurd rfl (hi cal)
  | rotTick | pwmTick | adcDone | runEdge | baroEdge | firePsm | fireRef | fireAdc | fireRun | fireBaro =>
    exact ⟨_, _, fun _ => rfl⟩

/-- R136: after RESET a second one is refused. -/
theorem exec_reset_of_booted {s : State} (hb : s.booted = true) (cal : CalSel) :
    exec (.reset cal) s = .refused .resetNotFirst :=
  if_pos hb

/-- R121: in the fault state every event but RESET is refused NotEnabled. -/
theorem exec_of_fault {i : Instr} {s : State} (hi : ∀ cal, i ≠ .reset cal) (hb : s.booted = true)
    (hf : s.fault ≠ none) : exec i s = .refused .notEnabled := by
  obtain ⟨en, op, hexec⟩ := exec_eq_whenEnabled hi
  rw [hexec, whenEnabled_of_fault en op hb hf]

/-- Settles O48: RESET is refused by its place in the trace, and the gate refuses every other event. -/
theorem faultStateEnablesNoEvent : Obligations.FaultStateEnablesNoEvent := by
  intro i s hb hf
  cases i with
  | reset cal => exact exec_reset_of_booted hb cal
  | rotTick | pwmTick | adcDone | runEdge | baroEdge | firePsm | fireRef | fireAdc | fireRun | fireBaro =>
    exact exec_of_fault (by simp) hb hf

/-! ## Environment events are never blocked -/

/-- R123: a source's event under a deadline completes or faults. -/
theorem raiseSource_ne_refused (src : Source) (miss : FaultReason) (s : State) (r : Refusal) :
    raiseSource src miss s ≠ .refused r := by
  unfold raiseSource raise
  split <;> simp

theorem exec_rotTick_ne_refused {s : State} (hs : Live s) (r : Refusal) : exec .rotTick s ≠ .refused r := by
  cases hrun : s.run with
  | false => simp [exec_rotTick_of_stopped hs hrun]
  | true =>
    by_cases hmatch : (s.rotCnt + 1) % 2 ^ s.cfg.cmpW = s.rotCmp
    · rw [exec_rotTick_of_match hs hrun hmatch]
      exact raiseSource_ne_refused _ _ _ r
    · simp [exec_rotTick_of_no_match hs hrun hmatch]

theorem exec_pwmTick_ne_refused {s : State} (hs : Live s) (r : Refusal) : exec .pwmTick s ≠ .refused r := by
  by_cases hover : s.pwmCnt.toNat = 255
  · rw [exec_pwmTick_of_overflow hs hover]
    exact raiseSource_ne_refused _ _ _ r
  · simp [exec_pwmTick_of_count hs (by omega)]

/-- Settles O49: each of the four, once live, completes or is a source's event under its deadline. -/
theorem environmentEventsAreNeverBlocked : Obligations.EnvironmentEventsAreNeverBlocked := by
  rintro i s hs (rfl | rfl | rfl | rfl) r
  · exact exec_rotTick_ne_refused hs r
  · exact exec_pwmTick_ne_refused hs r
  · simp [exec_runEdge_of_live hs]
  · rw [exec_baroEdge_of_live hs]
    exact raiseSource_ne_refused _ _ _ r

/-! ## A dispatch event is its source's operation -/

/-- The operation a source's dispatch event runs with the pending bit cleared (R125). -/
def Source.operation : Source → State → Result
  | .psm => firePosition
  | .ref => refreshCycle
  | .adc => sampleChannel
  | .run => toggleRun
  | .baro => fun s => .next (invertBaroFlag s)

theorem exec_fire_eq_dispatch (src : Source) (s : State) : exec src.fire s = dispatch src src.operation s := by
  cases src <;> rfl

theorem Source.fire_inj {src src' : Source} : src.fire = src'.fire ↔ src = src' := by
  cases src <;> cases src' <;> simp [Source.fire]

/-- R127: the operation completes at every state whose index is in the table; only PSM's reads the table. -/
theorem operation_completes (src : Source) {s : State} (hv : ValidConfig s.cfg) (hpos : s.posIdx.toNat < 20) :
    ∃ t, src.operation s = .next t := by
  cases src with
  | psm =>
    have hmod : s.posIdx.toNat = s.posIdx.toNat % 20 := (Nat.mod_eq_of_lt hpos).symm
    exact firePosition_completes (memRead_of_posIdx hv hmod) (memRead_of_posIdx hv (nextPos_toNat_of_mod hmod))
  | ref | adc | baro => exact ⟨_, rfl⟩
  | run =>
    rcases Nat.eq_zero_or_pos s.deb with hdeb | hdeb
    · exact ⟨_, toggleRun_of_deb_eq_zero hdeb⟩
    · exact ⟨_, toggleRun_of_deb_pos hdeb⟩

/-- R127: a dispatch event that completes was let through by the priority rule. -/
theorem fire_next_mayDispatch {src : Source} {s t : State} (h : exec src.fire s = .next t) :
    mayDispatch src s = true := by
  rw [exec_fire_eq_dispatch, dispatch_next_iff] at h
  obtain ⟨-, -, hm, -⟩ := h
  exact hm

/-- R128 as the obligation writes it: a pending PSM firing lets only itself be dispatched. -/
theorem mayDispatch_iff_imp (src : Source) (s : State) :
    mayDispatch src s = true ↔ s.pending src = true ∧ (s.pendPsm = true → src = .psm) := by
  rw [mayDispatch_iff, ← Bool.not_eq_true, or_comm, ← imp_iff_not_or]

/-- R127, R128: where the table index is good, a dispatch event completes exactly when it may be dispatched. -/
theorem exec_fire_completes_iff (src : Source) {s : State} (hb : s.booted = true) (hv : ValidConfig s.cfg)
    (hpos : s.posIdx.toNat < 20) :
    (∃ t, exec src.fire s = .next t) ↔ s.fault = none ∧ mayDispatch src s = true := by
  simp only [exec_fire_eq_dispatch, dispatch_next_iff]
  constructor
  · rintro ⟨t, -, hf, hm, -⟩
    exact ⟨hf, hm⟩
  · rintro ⟨hf, hm⟩
    obtain ⟨t, ht⟩ := operation_completes src (s := s.setPending src false) (by simpa using hv) (by simpa using hpos)
    exact ⟨t, hb, hf, hm, ht⟩

/-- Settles O46: the operation completes, so the gate alone decides. -/
theorem dispatchEnabledExactlyByPendingAndPriority : Obligations.DispatchEnabledExactlyByPendingAndPriority := by
  intro src s hb hv hpos
  have hiff := exec_fire_completes_iff src hb hv hpos
  refine ⟨by rw [hiff, mayDispatch_iff_imp], fun hno => ?_⟩
  rw [exec_fire_eq_dispatch]
  refine dispatch_of_not_enabled src _ s hb fun ⟨hf, hm⟩ => ?_
  obtain ⟨t, ht⟩ := hiff.2 ⟨hf, (mayDispatch_iff src s).2 hm⟩
  exact hno t ht

/-! ## Who sets and who clears a pending bit -/

/-- The event that raises a source (R125). -/
def Source.RaisedBy (src : Source) (i : Instr) : Prop :=
  match src with
  | .psm => i = .rotTick
  | .ref => i = .pwmTick
  | .adc => ∃ v, i = .adcDone v
  | .run => i = .runEdge
  | .baro => i = .baroEdge

/-- R126: a dispatch that completes clears its own bit and no other. -/
theorem fire_next_pending_eq {src : Source} {s t : State} (h : exec src.fire s = .next t) (src' : Source) :
    t.pending src' = if src' = src then false else s.pending src' := by
  cases src with
  | psm => obtain ⟨-, -, -, e, n, -, -, rfl⟩ := firePsm_next h; cases src' <;> rfl
  | ref => obtain ⟨-, -, -, -, rfl⟩ := fireRef_next h; cases src' <;> rfl
  | adc => obtain ⟨-, -, -, -, rfl⟩ := fireAdc_next h; cases src' <;> rfl
  | run => obtain ⟨-, -, -, -, ⟨-, rfl⟩ | ⟨-, rfl⟩⟩ := fireRun_next h <;> cases src' <;> rfl
  | baro => obtain ⟨-, -, -, -, rfl⟩ := fireBaro_next h; cases src' <;> rfl

/-- R126: after RESET an event that is no dispatch leaves a pending bit, or raises its source and sets it. -/
theorem environment_next_pending {i : Instr} {s t : State} (hi : ∀ src : Source, i ≠ src.fire)
    (hb : s.booted = true) (h : exec i s = .next t) (src : Source) :
    t.pending src = s.pending src ∨ src.RaisedBy i ∧ t.pending src = true := by
  cases i with
  | reset cal => simp [(reset_next h).1] at hb
  | rotTick =>
    obtain ⟨-, -, ⟨-, rfl⟩ | ⟨-, -, rfl⟩ | ⟨-, -, -, rfl⟩⟩ := rotTick_next h
    · exact .inl rfl
    · exact .inl (by cases src <;> rfl)
    · cases src <;> simp [State.pending, Source.RaisedBy]
  | pwmTick =>
    obtain ⟨-, -, ⟨-, rfl⟩ | ⟨-, -, rfl⟩⟩ := pwmTick_next h
    · exact .inl (by cases src <;> rfl)
    · cases src <;> simp [State.pending, Source.RaisedBy]
  | adcDone v =>
    obtain ⟨-, -, -, rfl⟩ := adcDone_next h
    cases src <;> simp [State.pending, Source.RaisedBy]
  | runEdge =>
    obtain ⟨-, -, rfl⟩ := runEdge_next h
    cases src <;> simp [State.pending, Source.RaisedBy]
  | baroEdge =>
    obtain ⟨-, -, -, rfl⟩ := baroEdge_next h
    cases src <;> simp [State.pending, Source.RaisedBy]
  | firePsm => exact absurd rfl (hi .psm)
  | fireRef => exact absurd rfl (hi .ref)
  | fireAdc => exact absurd rfl (hi .adc)
  | fireRun => exact absurd rfl (hi .run)
  | fireBaro => exact absurd rfl (hi .baro)

/-- Settles O45: a dispatch clears its own bit only, and any other event sets its source's bit only. -/
theorem pendingBitsSetBySourceClearedByDispatch : Obligations.PendingBitsSetBySourceClearedByDispatch := by
  intro i s t src hb h
  by_cases hfire : ∃ src' : Source, i = src'.fire
  · obtain ⟨src', rfl⟩ := hfire
    have hset := fire_next_pending h
    have hclear := fire_next_pending_eq h src
    rw [Source.fire_inj]
    rcases eq_or_ne src src' with rfl | hne
    · rw [if_pos rfl] at hclear
      exact ⟨fun hs _ => by simp [hs] at hset, fun _ _ => rfl, fun _ => ⟨hset, hclear⟩⟩
    · rw [if_neg hne] at hclear
      exact ⟨fun hs ht => by simp [hclear, hs] at ht, fun hs ht => by simp [hclear, hs] at ht,
        fun he => absurd he.symm hne⟩
  · have hnot : ∀ src' : Source, i ≠ src'.fire := fun src' he => hfire ⟨src', he⟩
    refine ⟨fun hs ht => ?_, fun hs ht => ?_, fun he => absurd he (hnot src)⟩
    · obtain hsame | ⟨hraised, -⟩ := environment_next_pending hnot hb h src
      · simp [hsame, hs] at ht
      · exact hraised
    · obtain hsame | ⟨-, htrue⟩ := environment_next_pending hnot hb h src
      · simp [hsame, hs] at ht
      · simp [htrue] at ht

/-! ## The faults, exactly -/

/-- R121: RESET never faults, and the gate lets the others run only after RESET and without a fault. -/
theorem exec_fault_live {i : Instr} {s : State} {f : Fault} (h : exec i s = .fault f) : Live s := by
  by_cases hi : ∃ cal, i = .reset cal
  · obtain ⟨cal, rfl⟩ := hi
    rw [exec, execReset] at h
    split at h <;> cases h
  · obtain ⟨en, op, hexec⟩ := exec_eq_whenEnabled (not_exists.1 hi)
    rw [hexec, whenEnabled_fault_iff] at h
    obtain ⟨hb, hf, -, -⟩ := h
    exact ⟨hb, hf⟩

theorem operation_ne_fault (src : Source) (s : State) (f : Fault) : src.operation s ≠ .fault f := by
  cases src with
  | psm =>
    simp only [Source.operation, firePosition, advancePosition]
    split
    · nofun
    · split <;> nofun
  | ref | adc | baro => nofun
  | run =>
    simp only [Source.operation, toggleRun]
    split <;> nofun

theorem exec_fire_ne_fault (src : Source) (s : State) (f : Fault) : exec src.fire s ≠ .fault f := by
  rw [exec_fire_eq_dispatch]
  intro h
  obtain ⟨-, -, -, hop⟩ := (whenEnabled_fault_iff _ _ s f).1 h
  exact operation_ne_fault src _ f hop

theorem exec_rotTick_fault_iff {s : State} (hs : Live s) (f : Fault) :
    exec .rotTick s = .fault f ↔
      s.run = true ∧ (s.rotCnt + 1) % 2 ^ s.cfg.cmpW = s.rotCmp ∧ s.pendPsm = true ∧
        f = .raised .deadlineMissPsm { s with rotCnt := 0, fault := some .deadlineMissPsm } := by
  cases hrun : s.run with
  | false => simp [exec_rotTick_of_stopped hs hrun]
  | true =>
    by_cases hmatch : (s.rotCnt + 1) % 2 ^ s.cfg.cmpW = s.rotCmp
    · simp [exec_rotTick_of_match hs hrun hmatch, raiseSource_fault_iff, State.pending, hmatch, hrun]
    · simp [exec_rotTick_of_no_match hs hrun hmatch, hmatch]

theorem exec_pwmTick_fault_iff {s : State} (hs : Live s) (f : Fault) :
    exec .pwmTick s = .fault f ↔
      s.pwmCnt.toNat = 255 ∧ s.pendRef = true ∧
        f = .raised .deadlineMissRef
          { s with pwmCnt := 0, dutyActMap := s.dutyBufMap, dutyActTps := s.dutyBufTps,
                   fault := some .deadlineMissRef } := by
  by_cases hover : s.pwmCnt.toNat = 255
  · simp [exec_pwmTick_of_overflow hs hover, raiseSource_fault_iff, State.pending, latchDuties, hover]
  · simp [exec_pwmTick_of_count hs (by omega), hover]

theorem exec_baroEdge_fault_iff {s : State} (hs : Live s) (f : Fault) :
    exec .baroEdge s = .fault f ↔
      s.pendBaro = true ∧ f = .raised .deadlineMissBaro { s with fault := some .deadlineMissBaro } := by
  rw [exec_baroEdge_of_live hs, raiseSource_fault_iff]
  rfl

/-- R123: there are no other faults. -/
theorem exec_fault_event {i : Instr} {s : State} {f : Fault} (h : exec i s = .fault f) :
    i = .rotTick ∨ i = .pwmTick ∨ i = .baroEdge := by
  cases i with
  | rotTick | pwmTick | baroEdge => simp
  | reset cal => simp [exec_reset_of_booted (exec_fault_live h).1] at h
  | adcDone v =>
    obtain ⟨-, -, -, hop⟩ := (whenEnabled_fault_iff _ _ s f).1 h
    cases hop
  | runEdge => simp [exec_runEdge_of_live (exec_fault_live h)] at h
  | firePsm => exact absurd h (exec_fire_ne_fault .psm s f)
  | fireRef => exact absurd h (exec_fire_ne_fault .ref s f)
  | fireAdc => exact absurd h (exec_fire_ne_fault .adc s f)
  | fireRun => exact absurd h (exec_fire_ne_fault .run s f)
  | fireBaro => exact absurd h (exec_fire_ne_fault .baro s f)

/-- Settles O47: only three events can fault, and each of them has its law in a live state. -/
theorem faultsAreExactlyTheThreeDeadlineMisses : Obligations.FaultsAreExactlyTheThreeDeadlineMisses := by
  intro i s t r
  constructor
  · intro h
    have hs := exec_fault_live h
    refine ⟨hs.1, hs.2, ?_⟩
    obtain rfl | rfl | rfl := exec_fault_event h
    · obtain ⟨hrun, hmatch, hp, hf⟩ := (exec_rotTick_fault_iff hs _).1 h
      cases hf
      exact .inl ⟨rfl, rfl, hrun, hmatch, hp, rfl⟩
    · obtain ⟨hover, hp, hf⟩ := (exec_pwmTick_fault_iff hs _).1 h
      cases hf
      exact .inr (.inl ⟨rfl, rfl, hover, hp, rfl⟩)
    · obtain ⟨hp, hf⟩ := (exec_baroEdge_fault_iff hs _).1 h
      cases hf
      exact .inr (.inr ⟨rfl, rfl, hp, rfl⟩)
  · rintro ⟨hb, hf, ⟨rfl, rfl, hrun, hmatch, hp, rfl⟩ | ⟨rfl, rfl, hover, hp, rfl⟩ | ⟨rfl, rfl, hp, rfl⟩⟩
    · exact exec_rotTick_of_match_of_pending ⟨hb, hf⟩ hrun hmatch hp
    · exact exec_pwmTick_of_overflow_of_pending ⟨hb, hf⟩ hover hp
    · exact (exec_baroEdge_fault_iff ⟨hb, hf⟩ _).2 ⟨hp, rfl⟩

/-! ## Weakly fair dispatch of PSM -/

section

variable {states : Nat → State} {events : Nat → Instr}

/-- What follows the first n events of an infinite run is an infinite run. -/
theorem InfiniteRun.drop (hrun : InfiniteRun states events) (n : Nat) :
    InfiniteRun (fun k => states (n + k)) (fun k => events (n + k)) :=
  fun k => hrun (n + k)

theorem InfiniteRun.live_machineInv_from (hrun : InfiniteRun states events) {n : Nat} (hlive : Live (states n))
    (hinv : MachineInv (states n)) {m : Nat} (hm : n ≤ m) : Live (states m) ∧ MachineInv (states m) := by
  obtain ⟨k, rfl⟩ := Nat.exists_eq_add_of_le hm
  exact (hrun.drop n).live_machineInv hlive hinv k

/-- R126: a firing that is pending stays pending as long as none is dispatched. -/
theorem InfiniteRun.pendPsm_of_no_firePsm (hrun : InfiniteRun states events) {n : Nat}
    (hbooted : ∀ m, n ≤ m → (states m).booted = true) (hno : ∀ m, n ≤ m → events m ≠ .firePsm)
    (hp : (states n).pendPsm = true) (m : Nat) (hm : n ≤ m) : (states m).pendPsm = true := by
  induction m, hm using Nat.le_induction with
  | base => exact hp
  | succ m hm ih =>
    obtain ⟨-, hclear, -⟩ := pendingBitsSetBySourceClearedByDispatch _ _ _ .psm (hbooted m hm) (hrun m)
    by_contra hfalse
    exact hno m hm (hclear ih (Bool.not_eq_true _ ▸ hfalse))

end

/-- Settles O53: an undispatched firing would stay pending, so enabled (R127, R128), for ever. -/
theorem fairRunDispatchesPendingPsm : Obligations.FairRunDispatchesPendingPsm := by
  intro states events n hrun hfair hlive hinv hp
  by_contra! hno
  have hgood : ∀ m, n ≤ m → Live (states m) ∧ MachineInv (states m) :=
    fun m hm => hrun.live_machineInv_from hlive hinv hm
  have henabled : ∀ m, n ≤ m → ∃ t, exec Source.psm.fire (states m) = .next t := by
    intro m hm
    obtain ⟨⟨hb, hf⟩, hv, hc⟩ := hgood m hm
    have hpend := hrun.pendPsm_of_no_firePsm (fun m hm => (hgood m hm).1.1) hno hp m hm
    exact (exec_fire_completes_iff .psm hb hv (hc hb).posIdx_lt).2 ⟨hf, (mayDispatch_iff .psm _).2 ⟨hpend, .inl rfl⟩⟩
  obtain ⟨m, hm, hfire⟩ := hfair .psm n henabled
  exact hno m hm hfire

/-! ## PSM firings that starve the sampler -/

/-- The word of every entry of the starving run's table: delta 1, HEP_A (R69). -/
def starveEntry : EntryWord := 0x10001#18

/-- TC1 with a table of deltas 1, so that with CH[1] = 0 the compare value is 1 and every tick after a firing
matches. -/
def starveConfig : Config := { Config.tc1 with rotTable := List.replicate 20 starveEntry }

/-- The starving run: a match at each even event and its firing at each odd one, with a result waiting throughout. -/
def starveStates (n : Nat) : State :=
  { State.reset with
    cfg := starveConfig
    run := true
    rotCmp := 1
    adcBusy := false
    pendAdc := true
    pendPsm := decide (n % 2 = 1)
    posIdx := BitVec.ofNat 5 (n / 2 % 20)
    hepA := decide (n / 2 % 2 = 1) }

/-- Its events. -/
def starveEvents (n : Nat) : Instr := if n % 2 = 0 then .rotTick else .firePsm

theorem starveConfig_valid : ValidConfig starveConfig := by decide

theorem tableEntry_starveConfig (k : Nat) : tableEntry starveConfig k = starveEntry :=
  List.eq_of_mem_replicate (tableEntry_mem starveConfig_valid k)

theorem starveStates_live (n : Nat) : Live (starveStates n) := ⟨rfl, rfl⟩

theorem starveStates_posIdx (n : Nat) : (starveStates n).posIdx.toNat = n / 2 % 20 := by
  have : n / 2 % 20 < 32 := by omega
  simp [starveStates, Nat.mod_eq_of_lt this]

/-- R109: at an even event the tick matches. -/
theorem starve_match {n : Nat} (h : n % 2 = 0) : exec .rotTick (starveStates n) = .next (starveStates (n + 1)) := by
  rw [exec_rotTick_of_match_of_idle (starveStates_live n) rfl rfl (by simp [starveStates, h])]
  have hodd : (n + 1) % 2 = 1 := by omega
  have hhalf : (n + 1) / 2 = n / 2 := by omega
  simp [starveStates, State.reset, hodd, hhalf]

/-- R85, R87: at an odd event the firing toggles HEP_A, advances POS_IDX and reloads ROT_CMP with 1. -/
theorem starve_fire {n : Nat} (h : n % 2 = 1) : exec .firePsm (starveStates n) = .next (starveStates (n + 1)) := by
  rw [exec_firePsm_eq_fired (starveStates_live n) (by simp [starveStates, h]) starveConfig_valid
    (starveStates_posIdx n)]
  have heven : (n + 1) % 2 = 0 := by omega
  have hhalf : (n + 1) / 2 = n / 2 + 1 := by omega
  have hpos : nextPos (starveStates n).posIdx = (starveStates (n + 1)).posIdx := by
    apply BitVec.eq_of_toNat_eq
    rw [nextPos_toNat_of_mod (starveStates_posIdx n), starveStates_posIdx, hhalf]
  have hhep : (!decide (n / 2 % 2 = 1)) = decide ((n + 1) / 2 % 2 = 1) := by
    rw [hhalf, ← decide_not, decide_eq_decide]
    omega
  have hmask : entryMask starveEntry = 0b01#2 := by decide
  have hcmp : nextDelay starveConfig ((starveStates n).chRead chRpm) (entryDelta starveEntry) = 1 := rfl
  have hcfg : (starveStates n).cfg = starveConfig := rfl
  rw [State.fired, hpos, hcfg, tableEntry_starveConfig, tableEntry_starveConfig, hcmp]
  simp [starveStates, heven, hmask, hhep]

theorem starve_infiniteRun : InfiniteRun starveStates starveEvents := by
  intro n
  rcases Nat.mod_two_eq_zero_or_one n with h | h
  · rw [starveEvents, if_pos h, starve_match h]
  · rw [starveEvents, if_neg (by omega), starve_fire h]

/-- R127, R128: no operation stays enabled, since PSM is not pending at an even event and blocks the others at an odd
one. -/
theorem starve_weaklyFair : WeaklyFair starveStates starveEvents := by
  intro src n henabled
  have hmay : ∀ m, n ≤ m → mayDispatch src (starveStates m) = true := by
    intro m hm
    obtain ⟨t, ht⟩ := henabled m hm
    exact fire_next_mayDispatch ht
  by_cases hsrc : src = .psm
  · subst hsrc
    obtain ⟨hp, -⟩ := (mayDispatch_iff .psm _).1 (hmay (2 * n) (by omega))
    simp [State.pending, starveStates] at hp
  · obtain ⟨-, hprio⟩ := (mayDispatch_iff src _).1 (hmay (2 * n + 1) (by omega))
    simp [hsrc, starveStates] at hprio

theorem starveStates_machineInv : MachineInv (starveStates 0) where
  valid := starveConfig_valid
  consistent _ := by
    constructor <;> decide

/-- Settles O56 by the run above: its only events are ROT_TICK and FIRE_PSM, and no conversion is in progress in it. -/
theorem weakFairnessAloneLetsPsmStarveTheSampler : Obligations.WeakFairnessAloneLetsPsmStarveTheSampler := by
  refine ⟨starveStates, starveEvents, starve_infiniteRun, starve_weaklyFair, fun n hbusy => ?_, starveStates_live 0,
    starveStates_machineInv, fun n => ⟨rfl, ?_⟩⟩
  · cases hbusy
  · unfold starveEvents
    split <;> simp

end Sys2Proof.Machine
end

section
/-! PROOFS. Spec 70_reset_and_hazards: RESET as the first event and elsewhere (R136, R137), the stopped rotation
(R144), two baro edges without a dispatch between them (R147) and a run that meets the deadline (R140, R141). -/

namespace Sys2Proof.Machine

/-! ## RESET -/

/-- R136, R137: as the first event of the trace RESET completes. -/
theorem exec_reset_of_not_booted {s : State} (hb : s.booted = false) (cal : CalSel) :
    exec (.reset cal) s = .next (powerOnReset cal s) :=
  if_neg (by simp [hb])

/-- R136: before RESET every other event is refused. -/
theorem exec_before_reset {i : Instr} {s : State} (hi : ∀ cal, i ≠ .reset cal) (hb : s.booted = false) :
    exec i s = .refused .noReset := by
  obtain ⟨en, op, hexec⟩ := exec_eq_whenEnabled hi
  rw [hexec, whenEnabled_before_reset en op s hb]

/-- R37, R72: the selector picks BARO_DUTY. -/
theorem calDuty_eq_ite (c : Config) (cal : CalSel) :
    calDuty c cal = if cal = .low then c.baroDutyLo else c.baroDutyHi := by
  cases cal <;> rfl

/-- Settles O11: RESET's ADC_RES is the configuration's. -/
theorem resetLeavesTheStatedValues : Obligations.ResetLeavesTheStatedValues := by
  refine ⟨by decide, by decide, fun cal s => ⟨fun hb => ⟨s.cfg.adcResInit, ?_⟩,
    fun hb => exec_reset_of_booted hb cal, fun i => exec_before_reset⟩⟩
  rw [exec_reset_of_not_booted hb, powerOnReset, calDuty_eq_ite]

/-! ## What every event of a run keeps -/

/-- A property that each event of a run keeps holds where the run ends. -/
theorem runEvents_keeps {P : State → Prop} {es : List Instr} {s t : State}
    (hstep : ∀ i ∈ es, ∀ u v, P u → exec i u = .next v → P v) (hs : P s)
    (h : runEvents es s = .next t) : P t := by
  induction es generalizing s with
  | nil =>
    cases h
    exact hs
  | cons i es ih =>
    obtain ⟨m, hi, hes⟩ := (runEvents_cons_next_iff i es s t).1 h
    exact ih (fun j hj => hstep j (List.mem_cons_of_mem i hj)) (hstep i List.mem_cons_self s m hs hi) hes

/-- R43: a run keeps the machine's invariant. -/
theorem runEvents_keeps_machineInv {es : List Instr} {s t : State} (hs : MachineInv s)
    (h : runEvents es s = .next t) : MachineInv t :=
  runEvents_keeps (fun _ _ _ _ hu => exec_keeps_machineInv hu) hs h

/-! ## The stopped rotation -/

/-- What R144 says of a later state t of a rotation stopped at s. -/
structure RotationFrozen (s t : State) : Prop where
  run : t.run = false
  rotCnt : t.rotCnt = s.rotCnt
  position : s.pendPsm = false → t.pendPsm = false ∧ t.posIdx = s.posIdx ∧ t.rotCmp = s.rotCmp ∧
    t.hepA = s.hepA ∧ t.hepB = s.hepB

theorem RotationFrozen.refl {s : State} (hrun : s.run = false) : RotationFrozen s s :=
  ⟨hrun, rfl, fun hp => ⟨hp, rfl, rfl, rfl, rfl⟩⟩

theorem RotationFrozen.trans {s m t : State} (hsm : RotationFrozen s m) (hmt : RotationFrozen m t) :
    RotationFrozen s t where
  run := hmt.run
  rotCnt := hmt.rotCnt.trans hsm.rotCnt
  position hp := by
    obtain ⟨hp', hpos, hcmp, hA, hB⟩ := hsm.position hp
    obtain ⟨hp'', hpos', hcmp', hA', hB'⟩ := hmt.position hp'
    exact ⟨hp'', hpos'.trans hpos, hcmp'.trans hcmp, hA'.trans hA, hB'.trans hB⟩

/-- R109: a tick of the stopped timer that completes stays. -/
theorem rotTick_next_of_stopped {s t : State} (hrun : s.run = false) (h : exec .rotTick s = .next t) : t = s := by
  obtain ⟨hb, hf, -⟩ := rotTick_next h
  rw [exec_rotTick_of_stopped ⟨hb, hf⟩ hrun] at h
  cases h
  rfl

/-- R126: only ROT_TICK makes a firing pending. -/
theorem exec_next_pendPsm_eq_false {i : Instr} {s t : State} (hb : s.booted = true) (hi : i ≠ .rotTick)
    (h : exec i s = .next t) (hp : s.pendPsm = false) : t.pendPsm = false := by
  obtain ⟨hset, -⟩ := pendingBitsSetBySourceClearedByDispatch i s t .psm hb h
  exact Bool.eq_false_iff.2 fun ht => hi (hset hp ht)

/-- R144: the stopped timer's tick changes nothing, RUN and ROT_CNT have no other writer but FIRE_RUN, and FIRE_PSM
needs a pending firing. -/
theorem exec_next_rotationFrozen {i : Instr} {s t : State} (hb : s.booted = true) (hrun : s.run = false)
    (hi : i ≠ .fireRun) (h : exec i s = .next t) : RotationFrozen s t := by
  by_cases htick : i = .rotTick
  · subst htick
    rw [rotTick_next_of_stopped hrun h]
    exact .refl hrun
  · obtain ⟨hpsm, -, -, hkeepRun, -, -, -, -, hkeepCnt, -⟩ := eachElementHasItsWriters i s t hb h
    refine ⟨(hkeepRun hi).trans hrun, hkeepCnt htick, fun hp => ?_⟩
    refine ⟨exec_next_pendPsm_eq_false hb htick h hp, hpsm ?_⟩
    rintro rfl
    obtain ⟨-, -, hpend, -⟩ := firePsm_next h
    simp [hp] at hpend

/-- Settles O16: each event of the run keeps the rotation frozen. -/
theorem stoppedRotationIsFrozen : Obligations.StoppedRotationIsFrozen := by
  intro es s t hb hrun hes h
  have hend : t.booted = true ∧ RotationFrozen s t := by
    refine runEvents_keeps (P := fun u => u.booted = true ∧ RotationFrozen s u) ?_ ⟨hb, .refl hrun⟩ h
    rintro i hi u v ⟨hbu, hfrozen⟩ huv
    have hne : i ≠ .fireRun := fun heq => hes (heq ▸ hi)
    exact ⟨exec_next_booted hbu huv, hfrozen.trans (exec_next_rotationFrozen hbu hfrozen.run hne huv)⟩
  obtain ⟨-, hrun', hcnt, hposition⟩ := hend
  exact ⟨hrun', hcnt, hposition⟩

/-! ## Two baro edges -/

/-- R126: a baro edge stays pending through every event but its dispatch. -/
theorem exec_next_pendBaro_eq_true {i : Instr} {s t : State} (hb : s.booted = true) (hi : i ≠ .fireBaro)
    (h : exec i s = .next t) (hp : s.pendBaro = true) : t.pendBaro = true := by
  obtain ⟨-, hclear, -⟩ := pendingBitsSetBySourceClearedByDispatch i s t .baro hb h
  exact Bool.of_not_eq_false fun ht => hi (hclear hp ht)

/-- Settles O43: the first edge is still pending at the second, which then misses its deadline. -/
theorem baroEdgesNeedADispatchBetween : Obligations.BaroEdgesNeedADispatchBetween := by
  intro es s t hb hes h
  obtain ⟨m, hbefore, hlast⟩ := (runEvents_append_next_iff _ _ s t).1 h
  obtain ⟨a, hfirst, hmid⟩ := (runEvents_cons_next_iff _ es s m).1 hbefore
  have hpend : m.booted = true ∧ m.pendBaro = true := by
    refine runEvents_keeps (P := fun u => u.booted = true ∧ u.pendBaro = true) ?_ ?_ hmid
    · rintro i hi u v ⟨hbu, hpu⟩ huv
      have hne : i ≠ .fireBaro := fun heq => hes (heq ▸ hi)
      exact ⟨exec_next_booted hbu huv, exec_next_pendBaro_eq_true hbu hne huv hpu⟩
    · obtain ⟨-, -, -, rfl⟩ := baroEdge_next hfirst
      exact ⟨hb, rfl⟩
  rw [runEvents_singleton] at hlast
  obtain ⟨-, -, hidle, -⟩ := baroEdge_next hlast
  simp [hpend] at hidle

/-! ## A run that meets the deadline -/

/-- R140: the rest of a run that meets the deadline meets it. -/
theorem MeetsDeadline.of_append {es fs : List Instr} {s m : State} (hmeets : MeetsDeadline (es ++ fs) s)
    (h : runEvents es s = .next m) : MeetsDeadline fs m := by
  induction es generalizing s with
  | nil =>
    cases h
    exact hmeets
  | cons i es ih =>
    obtain ⟨a, hi, hes⟩ := (runEvents_cons_next_iff i es s m).1 h
    obtain ⟨-, b, hi', hrest⟩ := hmeets
    cases hi.symm.trans hi'
    exact ih hrest hes

/-- R141: a FIRE_PSM that meets the deadline leaves the counter below the compare value it writes. -/
theorem MeetsDeadline.rotCnt_lt_rotCmp {es : List Instr} {s t : State} (hmeets : MeetsDeadline (.firePsm :: es) s)
    (h : exec .firePsm s = .next t) : t.rotCnt < t.rotCmp := by
  obtain ⟨hrace, -⟩ := hmeets
  exact Nat.lt_of_not_le fun hle => hrace rfl ⟨t, h, hle⟩

/-- Settles O57: the last FIRE_PSM runs no race, and the match is then the ticks left away (R110). -/
theorem metDeadlineNeverStretchesAnInterval : Obligations.MetDeadlineNeverStretchesAnInterval := by
  intro es s u hinv hb hmeets h hrun
  obtain ⟨m, hes, hlast⟩ := (runEvents_append_next_iff es _ s u).1 h
  rw [runEvents_singleton] at hlast
  have hahead : u.rotCnt < u.rotCmp := (hmeets.of_append hes).rotCnt_lt_rotCmp hlast
  obtain ⟨hbm, hfm, -⟩ := firePsm_next hlast
  have hlive : Live u := exec_next_live ⟨hbm, hfm⟩ hlast
  have hidle : u.pendPsm = false := fire_next_pending_eq (src := .psm) hlast .psm
  have hle : u.rotCmp ≤ 2 ^ u.cfg.cmpW - 1 := ((runEvents_keeps_machineInv hinv h).consistent hlive.1).rotCmp_le
  obtain ⟨-, hmatch⟩ := matchComesAfterTheTicksLeft u hlive hrun hidle hahead (by omega)
  exact ⟨hahead, hmatch⟩

end Sys2Proof.Machine
end
